-- ==== Sys2Proof/Config.lean ====
section
/-! DEFINITION. What the part fixes: sizes, capacities, ranges and identity codes, each from the rule it cites; and the one value
the spec leaves open, a constant without a body. -/

namespace Sys2Proof.Config

/-- Level points 0–1055 (R1). -/
abbrev points : Nat := 1056
/-- Logical sources and physical inputs 0–39 (R24). -/
abbrev sources : Nat := 40
/-- Mixes 0–23 (R29). -/
abbrev mixes : Nat := 24
/-- Zones 0–31 (R105). -/
abbrev zones : Nat := 32
/-- Trigger lines 0–15 (R99). -/
abbrev lines : Nat := 16
/-- Fade slots 0–31 (R38). -/
abbrev slots : Nat := 32
/-- Group ids 0–63 (R67). -/
abbrev groups : Nat := 64
/-- Entries of the fade unit's member pool (R39). -/
abbrev memberPool : Nat := 1024
/-- Cues the stack holds (R66). -/
abbrev cueLimit : Nat := 400
/-- Entries of the action pool (R66). -/
abbrev actionPool : Nat := 3072
/-- Entries of the group member pool (R67). -/
abbrev groupPool : Nat := 1024
/-- Runs the run list holds (R89). -/
abbrev runLimit : Nat := 16
/-- Greatest cue number (R61). -/
abbrev maxCue : Nat := 9999999
/-- Entries the log keeps (R156). -/
abbrev logSize : Nat := 2048
/-- Greatest value of written (R156). -/
abbrev maxWritten : Nat := 4294967295
/-- Greatest value of the performance clock in ms (R146). -/
abbrev maxClock : Nat := 99999999
/-- Greatest value of the 16-bit saturating counts (R34, R153, R156, R186). -/
abbrev max16 : Nat := 65535
/-- Frames of one relay watch window (R127). -/
abbrev windowFrames : Nat := 4800
/-- Good periods that clear an audio clock fault (R35). -/
abbrev goodPeriods : Nat := 48
/-- Frames from input to output (R23). -/
abbrev latency : Nat := 4
/-- Least spacing of two counted beats in ms (R96). -/
abbrev beatSpacing : Nat := 20
/-- Greatest quiet count (R126). -/
abbrev maxQuiet : Nat := 6000
/-- OFF, in tenths of a dB (R2). -/
abbrev off : Int := -900
/-- Greatest level, in tenths of a dB (R2). -/
abbrev maxLevel : Int := 120
/-- Least trim (R2). -/
abbrev minTrim : Int := -600
/-- Vendor code (R187). -/
abbrev vendor : Nat := 1207
/-- Part code (R187). -/
abbrev part : Nat := 2440
/-- Revision (R187). -/
abbrev revision : Nat := 1
/-- Greatest length of a frame's body (R175). -/
abbrev bodyLimit : Nat := 250

/-- A free value: the body of a STAGE VERIFY reply whose fields, as R164 lists them, are more characters than a frame's body
holds (DESIGN CHOICE, notes/assumptions/29.md). -/
opaque overlongReply : List (BitVec 8) → List (BitVec 8)

end Sys2Proof.Config
end

