-- ==== Sys2Proof/Word.lean ====
section
/-! DEFINITION. The plain data the engine's words and tables are made of: a lane character and its eight data bits (R174), the
16-bit check (R176), the 32 flags of a zone set (R180), and a table of a fixed number of numbered entries. -/

namespace Sys2Proof

/-- The eight data bits of a lane character (R174). -/
abbrev Byte := BitVec 8

/-- A lane character: its mark bit, which is 1 on the header character of a frame alone, and its eight data bits (R174). -/
structure Character where
  mark : Bool
  data : Byte
deriving DecidableEq, Repr

/-- The 16-bit check of a lane frame (R176). -/
abbrev Check := BitVec 16

/-- A set of the 32 zones: zone z is bit z (R180). -/
abbrev ZoneSet := BitVec 32

/-- A table of exactly `n` entries numbered from 0, kept as a list so that two tables compare and print as lists do. -/
structure Table (α : Type) (n : Nat) where
  toList : List α
  size_eq : toList.length = n
deriving DecidableEq, Repr

namespace Table

/-- The table whose every entry is `a`. -/
def replicate {α : Type} (n : Nat) (a : α) : Table α n := ⟨List.replicate n a, List.length_replicate⟩

/-- The table whose entry `i` is `f i`. -/
def tabulate {α : Type} (n : Nat) (f : Nat → α) : Table α n := ⟨(List.range n).map f, by simp⟩

end Table

end Sys2Proof
end

