-- ==== Sys2Proof/Syntax.lean ====
section
/-! DEFINITION. The commands of the engine: one constructor of `Instr` for each row of the spec's table of operations and
events, in the table's order. A row that is a desk's request carries the lane it comes on, its frame's tag (which the reply
echoes, R179) and its fields with the values a lane frame can carry (R180); the owner of the request checks them. A row that
is an event of the engine names what it happens to (a lane, a run's cue, a slot, a line, a zone) or the samples that arrive. -/

namespace Sys2Proof

/-- The three control lanes. -/
inductive Lane where
  | a | b | p
deriving DecidableEq, Repr

/-- A lane frame without its check: tag, code character and body (R175, 10.7). -/
structure Frame where
  tag : Byte
  code : Byte
  body : List Byte
deriving DecidableEq, Repr

/-- The target of a level request as a frame carries it: the kind's code (POINT 1, GROUP 2, ALL 3) and the number (R8, R180). -/
structure Target where
  kind : Nat
  number : Nat
deriving DecidableEq, Repr

/-- The header of a STAGE BEGIN, field by field as it is staged, in range or not (R160, R162). The shape fixes the kind. -/
inductive StageHeader where
  | cue (label : List Byte) (preWait followKind followValue promptCallable curtain : Nat)
  | group (label : List Byte)
  | zoneSetup (duckDepth : Int) (watchEnable : Nat) (threshold hysteresis : Int) (hold : Nat)
  | triggerSetup (polarities : List Nat)
  | showSetup (logMode callLimit duckAttack duckRelease : Nat)
  | removeCue
  | removeGroup
  /-- A kind code that is not one of the seven, with whatever follows the target. -/
  | unknown (kind : Byte) (rest : List Byte)
deriving DecidableEq, Repr

/-- Why a frame is abandoned or a character discarded and counted as truncated (R175). -/
inductive TruncatedCause where
  /-- A mark character arrived with a frame in assembly; it begins a new frame with this tag. -/
  | mark (tag : Byte)
  /-- A character without mark arrived with no frame in assembly. -/
  | stray (data : Byte)
  /-- A length character above 250 arrived. -/
  | lengthOver (length : Byte)
deriving DecidableEq, Repr

/-- The commands of the engine, one for each row of the table of operations and events. -/
inductive Instr where
  | powerOn
  | resetPin
  | goodFrame (lane : Lane) (frame : Frame)
  | checkError (lane : Lane) (frame : Frame) (received : Check)
  | framingError (lane : Lane)
  | frameTruncated (lane : Lane) (cause : TruncatedCause)
  | frameGap (lane : Lane)
  | replySent (lane : Lane)
  | laneReset (lane : Lane)
  | levelSet (lane : Lane) (tag : Byte) (target : Target) (level : Int)
  | trimNudge (lane : Lane) (tag : Byte) (target : Target) (delta : Int)
  | trimSet (lane : Lane) (tag : Byte) (target : Target) (value : Int)
  | trimClear (lane : Lane) (tag : Byte) (target : Target)
  | levelRead (lane : Lane) (tag : Byte) (first count : Nat)
  | inputSwap (lane : Lane) (tag : Byte) (first second : Nat)
  | inputRestore (lane : Lane) (tag : Byte)
  | inputMapRead (lane : Lane) (tag : Byte)
  | mixMask (lane : Lane) (tag : Byte) (mix state : Nat)
  | audioStatus (lane : Lane) (tag : Byte)
  | fadeStatus (lane : Lane) (tag : Byte) (first count : Nat)
  | cueList (lane : Lane) (tag : Byte) (fromNumber count : Nat)
  | cueRead (lane : Lane) (tag : Byte) (cue firstAction : Nat)
  | groupRead (lane : Lane) (tag : Byte) (id : Nat)
  | groupList (lane : Lane) (tag : Byte)
  | setupRead (lane : Lane) (tag : Byte) (kind zone : Nat)
  | go (lane : Lane) (tag : Byte) (expected : Option Nat)
  | preWaitEnd (cue : Nat)
  | fadeAdvance
  | fadeCompletion (slot : Nat)
  | followExpiry (cue : Nat)
  | beat
  | standbySet (lane : Lane) (tag : Byte) (cue : Nat)
  | panic (lane : Lane) (tag : Byte)
  | runStatus (lane : Lane) (tag : Byte) (first : Nat)
  | triggerStatus (lane : Lane) (tag : Byte)
  | pulseEnd (line : Nat)
  | repeatPhaseEnd (line : Nat)
  /-- ZONE ROUTE; the mix is as the frame carries it, 255 for NONE (R180). -/
  | zoneRoute (lane : Lane) (tag : Byte) (zone mix : Nat)
  | zoneStatus (lane : Lane) (tag : Byte) (first count : Nat)
  | callOpen (lane : Lane) (tag : Byte) (cls : Nat) (zones : ZoneSet) (level : Int)
  | callClose (lane : Lane) (tag : Byte)
  | callTimeout
  | callStatus (lane : Lane) (tag : Byte)
  | duckRampAdvance
  | duckRampEnd (zone : Nat)
  /-- One word clock period: the samples on the slots of ports I0 and I1 in slot order (R21). -/
  | audioFrame (i0 i1 : List Int)
  | windowEnd
  | clockLoss
  | clockReturn
  | audioRestored
  | alarmPoll (lane : Lane) (tag : Byte) (first : Nat)
  | alarmsAck (lane : Lane) (tag : Byte) (zones : ZoneSet)
  | arm (lane : Lane) (tag : Byte) (mode delay : Nat)
  | delayExpiry
  | intervalBegin (lane : Lane) (tag : Byte)
  | intervalEnd (lane : Lane) (tag : Byte)
  | finish (lane : Lane) (tag : Byte)
  | recordClear (lane : Lane) (tag : Byte)
  | recordStatus (lane : Lane) (tag : Byte)
  | readLog (lane : Lane) (tag : Byte) (fromSeq : Nat)
  | stageBegin (lane : Lane) (tag : Byte) (target : Nat) (header : StageHeader) (declared : Nat)
  /-- STAGE ADD; the item characters as they arrive, since the image's kind fixes their format (R163). -/
  | stageAdd (lane : Lane) (tag : Byte) (items : List Byte)
  | stageVerify (lane : Lane) (tag : Byte) (firstItem : Nat)
  | stageCommit (lane : Lane) (tag : Byte) (kind target declared expected : Nat)
  | notices (lane : Lane) (tag : Byte)
  | laneStatus (lane : Lane) (tag : Byte) (named : Nat)
  | engineReset (lane : Lane) (tag : Byte)
  | resetCauses (lane : Lane) (tag : Byte)
  | causesClear (lane : Lane) (tag : Byte)
  | identity (lane : Lane) (tag : Byte)
  | lineReturnedHigh (lane : Lane)
  | performanceClockMillisecond
deriving DecidableEq, Repr

end Sys2Proof
end

