-- ==== Sys2Proof/Machine/State.lean ====
section
/-! DEFINITION. The engine's state, block by block as the manual's introduction lists the blocks, and its value after
power-on. Derived quantities the manual also speaks of (effective levels, gains, pool counts, reference counts, the level
on a trigger line or an attention line) are computed where they are read. -/

namespace Sys2Proof.Machine

/-! ## Stops -/

/-- The engine names no event that stops it: every command is answered with a next state, so no fault exists. -/
inductive Fault where
deriving DecidableEq, Repr

/-- Why a command has no meaning in the model. -/
inductive Refusal where
  /-- Raised by `exec` for a command whose meaning is not written; no arm does so. Safe: the machine stops. -/
  | notModelled (mnemonic : String)
deriving DecidableEq, Repr

/-! ## Control lanes (10) -/

/-- One value for each of the three lanes. -/
structure PerLane (α : Type) where
  a : α
  b : α
  p : α
deriving DecidableEq, Repr

/-- The kinds a notice set may hold (R183). -/
inductive Notice where
  | standby | run | store | call | alarm | performance | reset
deriving DecidableEq, Repr

/-- A lane's notice set: which of the seven kinds it holds (R183). -/
structure NoticeSet where
  standby : Bool := false
  run : Bool := false
  store : Bool := false
  call : Bool := false
  alarm : Bool := false
  performance : Bool := false
  reset : Bool := false
deriving DecidableEq, Repr

/-- A lane's receive line: high; low since a framing error; or low for 1 ms and taken as a break (R174, R182). -/
inductive ReceiveLine where
  | high | low | broken
deriving DecidableEq, Repr

/-- What one lane holds (10). The frame in assembly is the data bits of its characters, of which the first alone came with its
mark bit; the reply in progress is the characters of the reply frame, header first. -/
structure LaneState where
  line : ReceiveLine := .high
  assembly : Option (List Byte) := none
  slot : Option Frame := none
  reply : Option (List Character) := none
  notices : NoticeSet := {}
  framing : Nat := 0
  check : Nat := 0
  truncated : Nat := 0
  dropped : Nat := 0
  laneResets : Nat := 0
deriving DecidableEq, Repr

/-! ## Level table (1) and fade unit (3) -/

/-- A level point: base, trim and fade membership (R2). A base of −900 is OFF. -/
structure Point where
  base : Int := -900
  trim : Int := 0
  membership : Option Nat := none
deriving DecidableEq, Repr

/-- The curve of a move (R42). -/
inductive Curve where
  | linear | early | late
deriving DecidableEq, Repr

/-- A member entry of a fade slot: the point and its start level L0 (R38). -/
structure Member where
  point : Nat
  start : Int
deriving DecidableEq, Repr

/-- The fields of a fade slot in use (R38). -/
structure FadeSlot where
  owner : Option Nat
  actionIndex : Nat
  target : Int
  duration : Nat
  curve : Curve
  elapsed : Nat
  members : List Member
deriving DecidableEq, Repr

/-! ## Show store (4) -/

/-- A cue's follow (R60). -/
inductive Follow where
  | none
  | afterStart (delay : Nat)
  | afterEnd (delay : Nat)
  | beats (count : Nat)
deriving DecidableEq, Repr

/-- The target of a LEVEL or HALT action (R64). -/
inductive ActTarget where
  | point (number : Nat)
  | group (id : Nat)
deriving DecidableEq, Repr

/-- The mode of a TRIGGER action (R64). -/
inductive TriggerMode where
  | pulse (width : Nat)
  | set
  | clear
  | repeating (period count : Nat)
deriving DecidableEq, Repr

/-- An action of a cue (R64). -/
inductive Action where
  | level (target : ActTarget) (level : Int) (fadeTime : Nat) (curve : Curve) (clearTrims : Bool)
  | route (zone : Nat) (mix : Option Nat)
  | mask (mix : Nat) (on : Bool)
  | trigger (line : Nat) (mode : TriggerMode)
  | halt (target : ActTarget)
deriving DecidableEq, Repr

/-- A cue record (R60). -/
structure Cue where
  number : Nat
  label : List Byte
  preWait : Nat
  follow : Follow
  promptCallable : Bool
  curtain : Bool
  actions : List Action
  editCount : Nat
deriving DecidableEq, Repr

/-- A group record, under its id in the group table (R9, R67). -/
structure Group where
  label : List Byte
  members : List Nat
  editCount : Nat
deriving DecidableEq, Repr

/-- A zone setup record (R70). -/
structure ZoneSetup where
  duckDepth : Int := 200
  watchEnable : Bool := false
  threshold : Int := -600
  hysteresis : Int := 30
  hold : Nat := 100
  editCount : Nat := 1
deriving DecidableEq, Repr

/-- The polarity of a trigger line (R70). -/
inductive Polarity where
  | activeHigh | activeLow
deriving DecidableEq, Repr

/-- The trigger setup record (R70). -/
structure TriggerSetup where
  polarity : Table Polarity Config.lines := .replicate _ .activeHigh
  editCount : Nat := 1
deriving DecidableEq, Repr

/-- What the log does when it is full (R156). -/
inductive LogMode where
  | wrap | hold
deriving DecidableEq, Repr

/-- The show setup record (R70): call limit in seconds, duck attack and release in milliseconds. -/
structure ShowSetup where
  logMode : LogMode := .wrap
  callLimit : Nat := 120
  duckAttack : Nat := 150
  duckRelease : Nat := 500
  editCount : Nat := 1
deriving DecidableEq, Repr

/-- The show store: the cue stack in number order, the group table and the setup records (4). -/
structure Store where
  cues : List Cue := []
  groups : Table (Option Group) Config.groups := .replicate _ none
  zoneSetups : Table ZoneSetup Config.zones := .replicate _ {}
  triggerSetup : TriggerSetup := {}
  showSetup : ShowSetup := {}
deriving DecidableEq, Repr

/-! ## Cue runner (5) -/

/-- Who a GO came from: a lane's desk, or a follow (R83). -/
inductive Origin where
  | lane (lane : Lane)
  | follow
deriving DecidableEq, Repr

/-- The state of a run (R88). -/
inductive RunState where
  | preWait | active
deriving DecidableEq, Repr

/-- The follow state of a run (R88). -/
inductive FollowState where
  | none | timing | counting | waitingEnd
deriving DecidableEq, Repr

/-- A run record (R88). -/
structure Run where
  cue : Nat
  origin : Origin
  state : RunState
  preWait : Nat
  follow : Follow
  followState : FollowState
  followRemaining : Nat
  slots : Nat
  snapped : Nat
deriving DecidableEq, Repr

/-- The last-GO record when present (R83). -/
structure LastGo where
  cue : Nat
  origin : Origin
  showTime : Nat
deriving DecidableEq, Repr

/-- The state of a trigger line (R99). A REPEAT also keeps the period its turns are reloaded from (R101). -/
inductive LineState where
  | idle
  | active
  | pulse (remaining : Nat)
  | repeating (phaseOn : Bool) (remaining countLeft period : Nat)
deriving DecidableEq, Repr

/-- What the cue runner holds (5). Standby is `none` for END; the run list is oldest first. -/
structure Runner where
  standby : Option Nat := none
  lastGo : Option LastGo := none
  runs : List Run := []
  beatCounter : Nat := 0
  lastBeat : Option Nat := none
  lines : Table LineState Config.lines := .replicate _ .idle
deriving DecidableEq, Repr

/-! ## Mix core (2) -/

/-- The state in which the mix core follows the word clock (2.5). -/
inductive ClockState where
  | good | absent | recovering
deriving DecidableEq, Repr

/-- The samples on the output slots of one frame: ports O0 and O1 (R21). -/
structure OutFrame where
  mixes : List Int
  zones : List Int
deriving DecidableEq, Repr

/-- The audio clock state, the frames computed and not yet sent (oldest first, R23) and the frame last sent, if any. -/
structure Audio where
  clock : ClockState := .absent
  goodPeriods : Nat := 0
  faultCount : Nat := 0
  faultMs : Nat := 0
  pipeline : List OutFrame := []
  sent : Option OutFrame := none
deriving DecidableEq, Repr

/-! ## Zone router and call queue (6) -/

/-- The kind of a duck ramp (R109). -/
inductive RampKind where
  | attack | release
deriving DecidableEq, Repr

/-- A duck ramp in progress (R105, R109). -/
structure Ramp where
  kind : RampKind
  start : Int
  target : Int
  time : Nat
  elapsed : Nat
deriving DecidableEq, Repr

/-- The live state of a zone (R105). -/
structure Zone where
  route : Option Nat := none
  duck : Int := 0
  ramp : Option Ramp := none
  targeted : Bool := false
deriving DecidableEq, Repr

/-- The class of a call (R112). -/
inductive CallClass where
  | general | artist | showStop
deriving DecidableEq, Repr

/-- A call as it was opened (R112). -/
structure Call where
  lane : Lane
  arrival : Nat
  cls : CallClass
  zones : ZoneSet
  level : Int
deriving DecidableEq, Repr

/-- The live call with its limit remaining and its time live, both in ms (R112). -/
structure LiveCall where
  call : Call
  limit : Nat
  timeLive : Nat
deriving DecidableEq, Repr

/-- The call queue: the live call, the waiting list oldest first, and the arrival counter (R112). -/
structure Calls where
  live : Option LiveCall := none
  waiting : List Call := []
  arrival : Nat := 1
deriving DecidableEq, Repr

/-! ## Relay watch (7) -/

/-- The watch's copy of a zone setup in force (R126). -/
structure WatchSetup where
  enable : Bool := false
  threshold : Int := -600
  hysteresis : Int := 30
  hold : Nat := 100
deriving DecidableEq, Repr

/-- The class of an ended window (R129). -/
inductive WindowClass where
  | cleared | held | counted
deriving DecidableEq, Repr

/-- The class and peak level of a zone's last window (R126). -/
structure LastWindow where
  cls : WindowClass
  peakLevel : Int
deriving DecidableEq, Repr

/-- The relay watch's record of one zone (R126). -/
structure WatchZone where
  setup : WatchSetup := {}
  peak : Nat := 0
  saturated : Nat := 0
  seenUnrouted : Bool := false
  seenDucked : Bool := false
  silentAlarm : Bool := false
  overAlarm : Bool := false
  quiet : Nat := 0
  last : Option LastWindow := none
deriving DecidableEq, Repr

/-- The relay watch: its zones, the window frame count and the fault-seen flag (R126). -/
structure Watch where
  zones : Table WatchZone Config.zones := .replicate _ {}
  frames : Nat := 0
  faultSeen : Bool := true
deriving DecidableEq, Repr

/-! ## Performance record (8) -/

/-- The lane field of a log entry (R154). -/
inductive LogLane where
  | lane (lane : Lane)
  | follow
  | engine
deriving DecidableEq, Repr

/-- The state of the performance record (8.1). -/
inductive PerfState where
  | clear | armed | running | interval | finished
deriving DecidableEq, Repr

/-- The start mode of an armed performance (R140). -/
inductive StartMode where
  | curtain
  | delay (ms : Nat)
deriving DecidableEq, Repr

/-- Why a run was retired (R97). -/
inductive RetireCause where
  | sameCue | listFull
deriving DecidableEq, Repr

/-- Why a live call ended (R117). -/
inductive EndReason where
  | closed | timeout | preempted
deriving DecidableEq, Repr

/-- Why an alarm was cleared (R134). -/
inductive ClearCause where
  | deliberate | signal | disabled | ack
deriving DecidableEq, Repr

/-- The nineteen kinds of log entry, each with its detail (R154). -/
inductive Detail where
  | performanceStart (mode : StartMode)
  | go (standby : Option Nat)
  | followGo (standby : Option Nat)
  | staleGo (standby : Option Nat)
  | followVoid (target : Option Nat)
  | panic (runs : Nat)
  | runRetired (cause : RetireCause) (cut : Bool)
  | movesSnapped (actionIndex points : Nat)
  | callLive (cls : CallClass) (zones arrival : Nat)
  | callEnd (reason : EndReason) (arrival : Nat)
  | alarmSetSilent (peakLevel : Int) (hold : Nat)
  | alarmSetOver (frames : Nat)
  | alarmClear (isOver : Bool) (cause : ClearCause)
  | audioFault (count : Nat)
  | audioRestored (ms : Nat)
  | inputSwap (first firstInput second secondInput : Nat)
  | inputRestore (changed : Nat)
  | intervalBegin (number : Nat)
  | intervalEnd (number length : Nat)
  | engineReset (runs slots waiting : Nat) (live : Option Nat)
  | performanceEnd (intervals : Nat) (closed : Bool)
deriving DecidableEq, Repr

/-- A log entry (R154). -/
structure LogEntry where
  seq : Nat
  time : Nat
  lane : LogLane
  cue : Option Nat
  zone : Option Nat
  detail : Detail
deriving DecidableEq, Repr

/-- An interval of the performance; the end time is absent while it is open (R140). -/
structure Interval where
  number : Nat
  beginTime : Nat
  endTime : Option Nat
deriving DecidableEq, Repr

/-- The six counters of the record (R153). -/
structure Counters where
  gos : Nat := 0
  staleGos : Nat := 0
  voidFollows : Nat := 0
  snappedPoints : Nat := 0
  callsLive : Nat := 0
  alarmsSet : Nat := 0
deriving DecidableEq, Repr

/-- The performance record (R140). The log holds the kept entries in sequence order, oldest first. -/
structure Record where
  state : PerfState := .clear
  startMode : Option StartMode := none
  delayRemaining : Nat := 0
  logMode : Option LogMode := none
  neverStarted : Bool := false
  clock : Nat := 0
  intervals : List Interval := []
  counters : Counters := {}
  log : List LogEntry := []
  written : Nat := 0
  lost : Nat := 0
deriving DecidableEq, Repr

/-! ## Staging (9) -/

/-- Why an image is INVALID (R161). -/
inductive InvalidReason where
  | range | label | count | kind | duplicate | overflow
deriving DecidableEq, Repr

/-- The status of a buffer that holds an image (R159); an EMPTY buffer holds none. -/
inductive ImageStatus where
  | opened
  | complete
  | invalid (reason : InvalidReason) (index : Option Nat)
deriving DecidableEq, Repr

/-- The image in a staging buffer (R159). Its items are the actions of a CUE image or the members of a GROUP image. -/
structure Image where
  status : ImageStatus
  header : StageHeader
  target : Nat
  declared : Nat
  actions : List Action
  members : List Nat
  expected : Nat
  committed : Bool
deriving DecidableEq, Repr

/-- The two staging buffers; `none` is EMPTY (R159). -/
structure Staging where
  a : Option Image := none
  b : Option Image := none
deriving DecidableEq, Repr

/-! ## Reset and identity (10.8) -/

/-- The reset cause record (R186). -/
structure Causes where
  power : Bool := false
  pin : Bool := false
  engine : Bool := false
  lane : Option Lane := none
  count : Nat := 0
deriving DecidableEq, Repr

/-! ## The engine -/

/-- The whole engine. `timeBase` counts the milliseconds of the internal time base since power-on or the reset pin, and
`pending` is the model's queue of commands that wait, first in, first out. -/
structure State where
  lanes : PerLane LaneState
  points : Table Point Config.points
  inputMap : Table Nat Config.sources
  masks : Table Bool Config.mixes
  audio : Audio
  slots : Table (Option FadeSlot) Config.slots
  store : Store
  runner : Runner
  zones : Table Zone Config.zones
  calls : Calls
  watch : Watch
  record : Record
  staging : Staging
  causes : Causes
  timeBase : Nat
  pending : List Instr
deriving DecidableEq, Repr

/-- The engine when power has come up (R184 and the rule of each block: R4, R24, R31, R36, R40, R71, R81, R105, R112, R126,
R141, R159, R177, R183); nothing is waiting. -/
def State.reset : State where
  lanes := ⟨{ notices := { reset := true } }, { notices := { reset := true } }, { notices := { reset := true } }⟩
  points := .replicate _ {}
  inputMap := .tabulate _ id
  masks := .replicate _ false
  audio := {}
  slots := .replicate _ none
  store := {}
  runner := {}
  zones := .replicate _ {}
  calls := {}
  watch := {}
  record := {}
  staging := {}
  causes := { power := true }
  timeBase := 0
  pending := []

end Sys2Proof.Machine
end

