-- ==== Sys2Proof/Machine/Arith.lean ====
section
/-! DEFINITION. The arithmetic of levels, gains, samples, fades and duck ramps: exact integer arithmetic, rounded where the
rule that computes it says how. -/

namespace Sys2Proof.Machine

/-- The nearer end of a range for a value outside it (the manual's "clamp"). -/
def clamp (lo hi x : Int) : Int := max lo (min hi x)

/-- A base within its range (R2). -/
def clampBase (x : Int) : Int := clamp Config.off Config.maxLevel x

/-- A trim within its range (R2). -/
def clampTrim (x : Int) : Int := clamp Config.minTrim Config.maxLevel x

/-- The effective level of a base and a trim (R3); −900 is OFF. -/
def effective (base trim : Int) : Int :=
  if base ≤ Config.off then Config.off else clamp Config.off Config.maxLevel (base + trim)

/-- The effective level of a point (R3). -/
def Point.effective (p : Point) : Int := Machine.effective p.base p.trim

/-- The greatest number below `acc + 2 ^ k` that `p` holds of, for a `p` that holds up to some number and of none above it. -/
def searchGreatest (p : Nat → Bool) : Nat → Nat → Nat
  | 0, acc => acc
  | k + 1, acc => searchGreatest p k (if p (acc + 2 ^ k) then acc + 2 ^ k else acc)

/-- `g − 1/2 ≤ 2²⁰ · 10^(e/200)`, raised to the 200th power so that it is stated in whole numbers. -/
def gainReaches (e : Int) (g : Nat) : Bool :=
  if 0 ≤ e then (2 * g - 1) ^ 200 ≤ 2 ^ 4200 * 10 ^ e.toNat
  else (2 * g - 1) ^ 200 * 10 ^ (-e).toNat ≤ 2 ^ 4200

/-- The gain of a level: 0 for OFF, else 2²⁰ · 10^(e/200) to the nearest integer, halfway upward (R5). -/
def gain (e : Int) : Nat := if e ≤ Config.off then 0 else searchGreatest (gainReaches e) 22 0

/-- A sample or sum scaled by a gain: the exact product over 2²⁰, to the nearest integer, halfway upward (R7). -/
def scale (x : Int) (g : Nat) : Int := (x * g + 524288) / 1048576

/-- A value limited to 24 bits (R30). -/
def sat24 (x : Int) : Int := clamp (-8388608) 8388607 x

/-- The progress of a move at elapsed time `t` of `d` (R42). -/
def progress (t d : Nat) : Nat := min 65536 (t * 65536 / d)

/-- The progress shaped by a curve (R42). -/
def Curve.shape (c : Curve) (p : Nat) : Nat :=
  match c with
  | .linear => p
  | .late => p * p / 65536
  | .early => 65536 - (65536 - p) * (65536 - p) / 65536

/-- The base at shaped progress `p`, from start level `l0` toward target `l1`; the quotient truncates toward zero (R43). -/
def fadeBase (l0 l1 : Int) (p : Nat) : Int := l0 + Int.tdiv ((l1 - l0) * p) 65536

/-- `peak · 10^(k/200) ≥ 8,388,607`, raised to the 200th power. -/
def peakReaches (peak k : Nat) : Bool := 8388607 ^ 200 ≤ peak ^ 200 * 10 ^ k

/-- The peak level of a window: 200 · log10(peak / 8,388,607) rounded down and clamped to −900..0 (R128). It is the negative
of the least `k` with `peakReaches`. -/
def peakLevel (peak : Nat) : Int :=
  if peak = 0 then Config.off
  else -((min 900 (searchGreatest (fun k => k == 0 || !peakReaches peak (k - 1)) 10 0) : Nat) : Int)

/-- The duck of a ramp at elapsed time `t`: the exact line rounded down (R109). -/
def rampDuck (d0 dT : Int) (t tr : Nat) : Int := d0 + (dT - d0) * t / tr

/-- The level of a zone's relay term: the zone level less the duck, OFF at or below −900 (R108). -/
def duckedLevel (e duck : Int) : Int :=
  if e ≤ Config.off then Config.off else if e - duck ≤ Config.off then Config.off else e - duck

end Sys2Proof.Machine
end

