-- ==== Sys2Proof/Decode.lean ====
section
/-! DEFINITION. From characters to commands and back. The table of operations gives no row any bits, so
`decodeTableWord` reads none; what the spec does lay out bit by bit is the lane character (R174), the lane frame (R175, R176,
10.7) and the body of each request (R180, 10.5). This file holds those field encodings, the check, the frame's characters, and for each request its
frame (`requestFrame`) and the reading of a frame's code and body (`parseRequest`). -/

namespace Sys2Proof

/-- The command a word spells by the table's bits: the table gives bits to no row, so none. -/
def decodeTableWord (_nbits _w : Nat) : Option Instr := none

/-! ## Field encodings (R180): most significant character first -/

/-- The number `n` in `k` characters. -/
def be : Nat → Nat → List Byte
  | 0, _ => []
  | k + 1, n => BitVec.ofNat 8 (n / 256 ^ k) :: be k n

/-- A signed value in 2 characters, two's complement. -/
def signed (x : Int) : List Byte := be 2 (x % 65536).toNat

/-- A flag: 0 clear, 1 set. -/
def flag (b : Bool) : Byte := if b then 1 else 0

/-- The number in 2 characters. -/
def nat2 (x1 x0 : Byte) : Nat := x1.toNat * 256 + x0.toNat

/-- The number in 3 characters. -/
def nat3 (x2 x1 x0 : Byte) : Nat := (x2.toNat * 256 + x1.toNat) * 256 + x0.toNat

/-- The number in 4 characters. -/
def nat4 (x3 x2 x1 x0 : Byte) : Nat := ((x3.toNat * 256 + x2.toNat) * 256 + x1.toNat) * 256 + x0.toNat

/-- The signed value in 2 characters. -/
def int2 (x1 x0 : Byte) : Int := if nat2 x1 x0 < 32768 then nat2 x1 x0 else (nat2 x1 x0 : Int) - 65536

/-! ## The check (R176) -/

/-- One bit entering the check register: generator x¹⁶ + x¹² + x⁵ + 1. -/
def crcBit (r : Check) (b : Bool) : Check :=
  if r.msb != b then (r <<< 1) ^^^ 0x1021#16 else r <<< 1

/-- One character entering the check register, most significant bit first. -/
def crcByte (r : Check) (c : Byte) : Check :=
  ([7, 6, 5, 4, 3, 2, 1, 0] : List Nat).foldl (fun r i => crcBit r (c.getLsbD i)) r

/-- The check over characters in the order sent, from a register of all ones, not inverted at the end. -/
def crc (cs : List Byte) : Check := cs.foldl crcByte 0xFFFF#16

/-- The length character of a body. -/
def lengthChar (body : List Byte) : Byte := BitVec.ofNat 8 body.length

/-- The check of a frame: over its length, code and body characters; the header is not covered (R176). -/
def frameCheck (f : Frame) : Check := crc (lengthChar f.body :: f.code :: f.body)

/-- The characters of a frame that carries these check bits: the tag with its mark bit, then the length, the code, the body and
the check's upper and lower eight bits without (R174, 10.7). -/
def charsWith (f : Frame) (check : Check) : List Character :=
  ⟨true, f.tag⟩ :: (lengthChar f.body :: f.code :: f.body ++ be 2 check.toNat).map (Character.mk false)

/-- The characters of a frame as they are sent, with the frame's own check (R176). -/
def frameChars (f : Frame) : List Character := charsWith f (frameCheck f)

/-- A character in its 11 bits in the order they are on the line: a start bit of 0, the data bits from the least significant, the
mark bit, and a stop bit of 1 (R174). -/
def Character.bits (c : Character) : List Bool :=
  false :: ([0, 1, 2, 3, 4, 5, 6, 7] : List Nat).map (fun k => c.data.getLsbD k) ++ [c.mark, true]

/-! ## Requests: codes and lanes (10.5, R181) -/

/-- The request codes of 10.5 that any lane may send. -/
def anyLaneCodes : List Nat :=
  [0x14, 0x1A, 0x1C, 0x20, 0x28, 0x29, 0x2A, 0x2B, 0x2C, 0x30, 0x32, 0x33, 0x34, 0x39, 0x3A, 0x3B, 0x3C,
   0x40, 0x48, 0x49, 0x4A, 0x4B, 0x4C, 0x4D, 0x4E, 0x58, 0x59, 0x61, 0x63]

/-- The request codes of 10.5 that a FULL lane alone may send. -/
def fullLaneCodes : List Nat :=
  [0x10, 0x11, 0x12, 0x13, 0x18, 0x19, 0x1B, 0x31, 0x38, 0x41, 0x50, 0x51, 0x52, 0x53, 0x60, 0x62]

/-- The code is a request code of 10.5. -/
def isRequestCode (code : Byte) : Bool := anyLaneCodes.contains code.toNat || fullLaneCodes.contains code.toNat

/-- The lane's role permits a request of this code (R181). -/
def rolePermits (lane : Lane) (code : Byte) : Bool :=
  match lane with
  | .p => anyLaneCodes.contains code.toNat
  | .a | .b => isRequestCode code

/-! ## Requests: bodies -/

/-- The characters of a target (R180). -/
def targetBytes (t : Target) : List Byte := be 1 t.kind ++ be 2 t.number

/-- A label: its length, then its characters (R180). -/
def labelBytes (label : List Byte) : List Byte := lengthChar label :: label

/-- The kind code of a header's shape (R159's order). -/
def StageHeader.kindCode : StageHeader → Nat
  | .cue .. => 1
  | .group _ => 2
  | .zoneSetup .. => 3
  | .triggerSetup _ => 4
  | .showSetup .. => 5
  | .removeCue => 6
  | .removeGroup => 7
  | .unknown kind _ => kind.toNat

/-- The header fields in the order of R160's table. -/
def headerBytes : StageHeader → List Byte
  | .cue label preWait fk fv prompt curtain =>
    labelBytes label ++ be 3 preWait ++ be 1 fk ++ be 3 fv ++ be 1 prompt ++ be 1 curtain
  | .group label => labelBytes label
  | .zoneSetup depth enable threshold hysteresis hold =>
    signed depth ++ be 1 enable ++ signed threshold ++ signed hysteresis ++ be 2 hold
  | .triggerSetup polarities => polarities.flatMap (be 1)
  | .showSetup mode limit attack release => be 1 mode ++ be 2 limit ++ be 3 attack ++ be 3 release
  | .removeCue => []
  | .removeGroup => []
  | .unknown _ _ => []

/-- The body of a STAGE BEGIN: kind, staging target, header fields, declared count (R180). -/
def stageBeginBody (target : Nat) (header : StageHeader) (declared : Nat) : List Byte :=
  be 1 header.kindCode ++ be 3 target ++
    (match header with
     | .unknown _ rest => rest
     | h => headerBytes h ++ be 1 declared)

/-- The characters of a zone set: 32 flags, zone z in bit z of the 32-bit value (R180). -/
def zoneSetBytes (z : ZoneSet) : List Byte := be 4 z.toNat

/-- The lane and the frame of a request; an event of the engine is in no frame. A number that R180's table gives no row, as the
source numbers of INPUT SWAP, takes the width that notes/assumptions/32.md says (DESIGN CHOICE). -/
def requestFrame : Instr → Option (Lane × Frame)
  | .levelSet l t g v => some (l, ⟨t, 0x10, targetBytes g ++ signed v⟩)
  | .trimNudge l t g v => some (l, ⟨t, 0x11, targetBytes g ++ signed v⟩)
  | .trimSet l t g v => some (l, ⟨t, 0x12, targetBytes g ++ signed v⟩)
  | .trimClear l t g => some (l, ⟨t, 0x13, targetBytes g⟩)
  | .levelRead l t p n => some (l, ⟨t, 0x14, be 2 p ++ be 1 n⟩)
  | .inputSwap l t x y => some (l, ⟨t, 0x18, be 1 x ++ be 1 y⟩)
  | .inputRestore l t => some (l, ⟨t, 0x19, []⟩)
  | .inputMapRead l t => some (l, ⟨t, 0x1A, []⟩)
  | .mixMask l t m v => some (l, ⟨t, 0x1B, be 1 m ++ be 1 v⟩)
  | .audioStatus l t => some (l, ⟨t, 0x1C, []⟩)
  | .fadeStatus l t k n => some (l, ⟨t, 0x20, be 1 k ++ be 1 n⟩)
  | .cueList l t x n => some (l, ⟨t, 0x28, be 3 x ++ be 1 n⟩)
  | .cueRead l t c x => some (l, ⟨t, 0x29, be 3 c ++ be 1 x⟩)
  | .groupRead l t g => some (l, ⟨t, 0x2A, be 1 g⟩)
  | .groupList l t => some (l, ⟨t, 0x2B, []⟩)
  | .setupRead l t k z => some (l, ⟨t, 0x2C, be 1 k ++ be 1 z⟩)
  | .go l t none => some (l, ⟨t, 0x30, []⟩)
  | .go l t (some c) => some (l, ⟨t, 0x30, be 3 c⟩)
  | .standbySet l t c => some (l, ⟨t, 0x31, be 3 c⟩)
  | .panic l t => some (l, ⟨t, 0x32, []⟩)
  | .runStatus l t x => some (l, ⟨t, 0x33, be 1 x⟩)
  | .triggerStatus l t => some (l, ⟨t, 0x34, []⟩)
  | .zoneRoute l t z m => some (l, ⟨t, 0x38, be 1 z ++ be 1 m⟩)
  | .zoneStatus l t z n => some (l, ⟨t, 0x39, be 1 z ++ be 1 n⟩)
  | .callOpen l t k z v => some (l, ⟨t, 0x3A, be 1 k ++ zoneSetBytes z ++ signed v⟩)
  | .callClose l t => some (l, ⟨t, 0x3B, []⟩)
  | .callStatus l t => some (l, ⟨t, 0x3C, []⟩)
  | .alarmPoll l t z => some (l, ⟨t, 0x40, be 1 z⟩)
  | .alarmsAck l t z => some (l, ⟨t, 0x41, zoneSetBytes z⟩)
  | .arm l t m d => some (l, ⟨t, 0x48, be 1 m ++ be 3 d⟩)
  | .intervalBegin l t => some (l, ⟨t, 0x49, []⟩)
  | .intervalEnd l t => some (l, ⟨t, 0x4A, []⟩)
  | .finish l t => some (l, ⟨t, 0x4B, []⟩)
  | .recordClear l t => some (l, ⟨t, 0x4C, []⟩)
  | .recordStatus l t => some (l, ⟨t, 0x4D, []⟩)
  | .readLog l t k => some (l, ⟨t, 0x4E, be 4 k⟩)
  | .stageBegin l t g h n => some (l, ⟨t, 0x50, stageBeginBody g h n⟩)
  | .stageAdd l t items => some (l, ⟨t, 0x51, items⟩)
  | .stageVerify l t x => some (l, ⟨t, 0x52, be 1 x⟩)
  | .stageCommit l t k g n e => some (l, ⟨t, 0x53, be 1 k ++ be 3 g ++ be 1 n ++ be 2 e⟩)
  | .notices l t => some (l, ⟨t, 0x58, []⟩)
  | .laneStatus l t x => some (l, ⟨t, 0x59, be 1 x⟩)
  | .engineReset l t => some (l, ⟨t, 0x60, []⟩)
  | .resetCauses l t => some (l, ⟨t, 0x61, []⟩)
  | .causesClear l t => some (l, ⟨t, 0x62, []⟩)
  | .identity l t => some (l, ⟨t, 0x63, []⟩)
  | .powerOn | .resetPin | .goodFrame _ _ | .checkError _ _ _ | .framingError _ | .frameTruncated _ _ | .frameGap _
  | .replySent _ | .laneReset _ | .preWaitEnd _ | .fadeAdvance | .fadeCompletion _ | .followExpiry _ | .beat
  | .pulseEnd _ | .repeatPhaseEnd _ | .callTimeout | .duckRampAdvance | .duckRampEnd _ | .audioFrame _ _ | .windowEnd
  | .clockLoss | .clockReturn | .audioRestored | .delayExpiry | .lineReturnedHigh _
  | .performanceClockMillisecond => none

/-! ## Reading a request (R178 step 4, R180) -/

/-- A body with no fields. -/
def parse0 (i : Instr) : List Byte → Option Instr
  | [] => some i
  | _ => none

/-- A body of one character. -/
def parse1 (f : Nat → Instr) : List Byte → Option Instr
  | [x] => some (f x.toNat)
  | _ => none

/-- A body of two characters, each a number. -/
def parse11 (f : Nat → Nat → Instr) : List Byte → Option Instr
  | [x, y] => some (f x.toNat y.toNat)
  | _ => none

/-- A number in 3 characters and one in 1. -/
def parse31 (f : Nat → Nat → Instr) : List Byte → Option Instr
  | [a, b, c, y] => some (f (nat3 a b c) y.toNat)
  | _ => none

/-- A target and a signed value. -/
def parseTargetValue (f : Target → Int → Instr) : List Byte → Option Instr
  | [k, n1, n0, v1, v0] => some (f ⟨k.toNat, nat2 n1 n0⟩ (int2 v1 v0))
  | _ => none

/-- The zone set in 4 characters. -/
def zoneSet4 (a b c d : Byte) : ZoneSet := BitVec.ofNat 32 (nat4 a b c d)

/-- The fields of a STAGE BEGIN after its kind and staging target: the header of the kind, then the declared count. -/
def parseHeader (kind : Byte) (rest : List Byte) : Option (StageHeader × Nat) :=
  match kind.toNat with
  | 1 =>
    match rest with
    | [] => none
    | n :: cs =>
      match cs.drop n.toNat with
      | [p2, p1, p0, fk, f2, f1, f0, pc, cu, dc] =>
        some (.cue (cs.take n.toNat) (nat3 p2 p1 p0) fk.toNat (nat3 f2 f1 f0) pc.toNat cu.toNat, dc.toNat)
      | _ => none
  | 2 =>
    match rest with
    | [] => none
    | n :: cs =>
      match cs.drop n.toNat with
      | [dc] => some (.group (cs.take n.toNat), dc.toNat)
      | _ => none
  | 3 =>
    match rest with
    | [d1, d0, we, t1, t0, y1, y0, o1, o0, dc] =>
      some (.zoneSetup (int2 d1 d0) we.toNat (int2 t1 t0) (int2 y1 y0) (nat2 o1 o0), dc.toNat)
    | _ => none
  | 4 =>
    match rest.drop 16 with
    | [dc] => some (.triggerSetup ((rest.take 16).map BitVec.toNat), dc.toNat)
    | _ => none
  | 5 =>
    match rest with
    | [m, l1, l0, a2, a1, a0, r2, r1, r0, dc] =>
      some (.showSetup m.toNat (nat2 l1 l0) (nat3 a2 a1 a0) (nat3 r2 r1 r0), dc.toNat)
    | _ => none
  | 6 =>
    match rest with
    | [dc] => some (.removeCue, dc.toNat)
    | _ => none
  | 7 =>
    match rest with
    | [dc] => some (.removeGroup, dc.toNat)
    | _ => none
  | _ => some (.unknown kind rest, 0)

/-- The fields of a STAGE BEGIN. -/
def parseStageBegin (f : Nat → StageHeader → Nat → Instr) : List Byte → Option Instr
  | k :: t2 :: t1 :: t0 :: rest => (parseHeader k rest).map fun h => f (nat3 t2 t1 t0) h.1 h.2
  | _ => none

/-- The fields of the requests with bodies of other shapes than the helpers above. -/
def parseGo (f : Option Nat → Instr) : List Byte → Option Instr
  | [] => some (f none)
  | [a, b, c] => some (f (some (nat3 a b c)))
  | _ => none

/-- The request that a frame's code and body carry on a lane, or none where the body does not fit its fields (or the code is
no request code). -/
def parseRequest (l : Lane) (f : Frame) : Option Instr :=
  let t := f.tag
  match f.code.toNat with
  | 0x10 => parseTargetValue (.levelSet l t) f.body
  | 0x11 => parseTargetValue (.trimNudge l t) f.body
  | 0x12 => parseTargetValue (.trimSet l t) f.body
  | 0x13 => match f.body with | [k, n1, n0] => some (.trimClear l t ⟨k.toNat, nat2 n1 n0⟩) | _ => none
  | 0x14 => match f.body with | [a, b, n] => some (.levelRead l t (nat2 a b) n.toNat) | _ => none
  | 0x18 => parse11 (.inputSwap l t) f.body
  | 0x19 => parse0 (.inputRestore l t) f.body
  | 0x1A => parse0 (.inputMapRead l t) f.body
  | 0x1B => parse11 (.mixMask l t) f.body
  | 0x1C => parse0 (.audioStatus l t) f.body
  | 0x20 => parse11 (.fadeStatus l t) f.body
  | 0x28 => parse31 (.cueList l t) f.body
  | 0x29 => parse31 (.cueRead l t) f.body
  | 0x2A => parse1 (.groupRead l t) f.body
  | 0x2B => parse0 (.groupList l t) f.body
  | 0x2C => parse11 (.setupRead l t) f.body
  | 0x30 => parseGo (.go l t) f.body
  | 0x31 => match f.body with | [a, b, c] => some (.standbySet l t (nat3 a b c)) | _ => none
  | 0x32 => parse0 (.panic l t) f.body
  | 0x33 => parse1 (.runStatus l t) f.body
  | 0x34 => parse0 (.triggerStatus l t) f.body
  | 0x38 => parse11 (.zoneRoute l t) f.body
  | 0x39 => parse11 (.zoneStatus l t) f.body
  | 0x3A =>
    match f.body with
    | [k, a, b, c, d, v1, v0] => some (.callOpen l t k.toNat (zoneSet4 a b c d) (int2 v1 v0))
    | _ => none
  | 0x3B => parse0 (.callClose l t) f.body
  | 0x3C => parse0 (.callStatus l t) f.body
  | 0x40 => parse1 (.alarmPoll l t) f.body
  | 0x41 => match f.body with | [a, b, c, d] => some (.alarmsAck l t (zoneSet4 a b c d)) | _ => none
  | 0x48 => match f.body with | [m, a, b, c] => some (.arm l t m.toNat (nat3 a b c)) | _ => none
  | 0x49 => parse0 (.intervalBegin l t) f.body
  | 0x4A => parse0 (.intervalEnd l t) f.body
  | 0x4B => parse0 (.finish l t) f.body
  | 0x4C => parse0 (.recordClear l t) f.body
  | 0x4D => parse0 (.recordStatus l t) f.body
  | 0x4E => match f.body with | [a, b, c, d] => some (.readLog l t (nat4 a b c d)) | _ => none
  | 0x50 => parseStageBegin (.stageBegin l t) f.body
  | 0x51 => some (.stageAdd l t f.body)
  | 0x52 => parse1 (.stageVerify l t) f.body
  | 0x53 =>
    match f.body with
    | [k, a, b, c, n, e1, e0] => some (.stageCommit l t k.toNat (nat3 a b c) n.toNat (nat2 e1 e0))
    | _ => none
  | 0x58 => parse0 (.notices l t) f.body
  | 0x59 => parse1 (.laneStatus l t) f.body
  | 0x60 => parse0 (.engineReset l t) f.body
  | 0x61 => parse0 (.resetCauses l t) f.body
  | 0x62 => parse0 (.causesClear l t) f.body
  | 0x63 => parse0 (.identity l t) f.body
  | _ => none

end Sys2Proof
end

