-- ==== Sys2Proof/Machine/Tables.lean ====
section
/-! DEFINITION. Reading and changing the numbered tables and the per-lane values that the state is made of. A number that no
entry has reads as the default given and changes nothing. -/

namespace Sys2Proof

/-- Entry `i`, or `d` where there is none. -/
def Table.getD {α : Type} {n : Nat} (t : Table α n) (i : Nat) (d : α) : α := t.toList[i]?.getD d

/-- Entry `i` changed by `f`. -/
def Table.update {α : Type} {n : Nat} (t : Table α n) (i : Nat) (f : α → α) : Table α n :=
  ⟨t.toList.modify i f, by simp [t.size_eq]⟩

/-- The list with `f k` applied to its first element, `f (k + 1)` to the next, and so on. -/
def mapFrom {α β : Type} (f : Nat → α → β) : Nat → List α → List β
  | _, [] => []
  | k, x :: xs => f k x :: mapFrom f (k + 1) xs

theorem length_mapFrom {α β : Type} (f : Nat → α → β) (k : Nat) (xs : List α) :
    (mapFrom f k xs).length = xs.length := by
  induction xs generalizing k with
  | nil => rfl
  | cons x xs ih => simp [mapFrom, ih]

/-- Every entry changed by `f` and its number. -/
def Table.mapIdx {α β : Type} {n : Nat} (f : Nat → α → β) (t : Table α n) : Table β n :=
  ⟨mapFrom f 0 t.toList, by rw [length_mapFrom, t.size_eq]⟩

namespace Machine

/-- A lane's value. -/
def PerLane.get {α : Type} (v : PerLane α) : Lane → α
  | .a => v.a
  | .b => v.b
  | .p => v.p

/-- A lane's value changed by `f`. -/
def PerLane.modify {α : Type} (v : PerLane α) (l : Lane) (f : α → α) : PerLane α :=
  match l with
  | .a => { v with a := f v.a }
  | .b => { v with b := f v.b }
  | .p => { v with p := f v.p }

/-- Every lane's value changed by `f`. -/
def PerLane.map {α : Type} (f : α → α) (v : PerLane α) : PerLane α := ⟨f v.a, f v.b, f v.p⟩

/-- One more than `n`, staying at `cap` once there. -/
def bump (cap n : Nat) : Nat := min cap (n + 1)

/-- One lane's state changed by `f`. -/
def State.onLane (l : Lane) (f : LaneState → LaneState) (s : State) : State :=
  { s with lanes := s.lanes.modify l f }

/-- A point of the level table; a number that is no point reads as a point at OFF. -/
def State.point (s : State) (p : Nat) : Point := s.points.getD p {}

/-- One point changed by `f`. -/
def State.onPoint (p : Nat) (f : Point → Point) (s : State) : State :=
  { s with points := s.points.update p f }

/-- A fade slot; `none` is FREE. -/
def State.slot (s : State) (k : Nat) : Option FadeSlot := s.slots.getD k none

/-- One fade slot set. -/
def State.setSlot (k : Nat) (v : Option FadeSlot) (s : State) : State :=
  { s with slots := s.slots.update k fun _ => v }

/-- A zone's live state. -/
def State.zone (s : State) (z : Nat) : Zone := s.zones.getD z {}

/-- One zone changed by `f`. -/
def State.onZone (z : Nat) (f : Zone → Zone) (s : State) : State := { s with zones := s.zones.update z f }

/-- A zone's setup record. -/
def State.zoneSetup (s : State) (z : Nat) : ZoneSetup := s.store.zoneSetups.getD z {}

/-- A trigger line's state. -/
def State.line (s : State) (n : Nat) : LineState := s.runner.lines.getD n .idle

/-- One trigger line set. -/
def State.setLine (n : Nat) (v : LineState) (s : State) : State :=
  { s with runner := { s.runner with lines := s.runner.lines.update n fun _ => v } }

/-- A zone's record in the relay watch. -/
def State.watchZone (s : State) (z : Nat) : WatchZone := s.watch.zones.getD z {}

/-- One zone's watch record changed by `f`. -/
def State.onWatchZone (z : Nat) (f : WatchZone → WatchZone) (s : State) : State :=
  { s with watch := { s.watch with zones := s.watch.zones.update z f } }

/-- Lane A's or Lane B's staging buffer; Lane P has none (R159). -/
def State.buffer (s : State) : Lane → Option Image
  | .a => s.staging.a
  | .b => s.staging.b
  | .p => none

/-- Lane A's or Lane B's staging buffer set (R159). -/
def State.setBuffer (l : Lane) (v : Option Image) (s : State) : State :=
  match l with
  | .a => { s with staging := { s.staging with a := v } }
  | .b => { s with staging := { s.staging with b := v } }
  | .p => s

end Machine

end Sys2Proof
end

