-- ==== Sys2Proof/Machine/Flags.lean ====
section
/-! DEFINITION. Notice sets and attention lines (R183), and the codes of the enumerated values that replies carry, numbered
from 1 in the order in which the manual first lists them (R180). -/

namespace Sys2Proof.Machine

/-- A kind added to a notice set; a kind already there stays once (R183). -/
def NoticeSet.add (k : Notice) (n : NoticeSet) : NoticeSet :=
  match k with
  | .standby => { n with standby := true }
  | .run => { n with run := true }
  | .store => { n with store := true }
  | .call => { n with call := true }
  | .alarm => { n with alarm := true }
  | .performance => { n with performance := true }
  | .reset => { n with reset := true }

/-- The set as one character of flags, STANDBY in bit 0 through RESET in bit 6 (R183). -/
def NoticeSet.char (n : NoticeSet) : Byte :=
  let bit (b : Bool) (w : Nat) : Nat := if b then w else 0
  BitVec.ofNat 8 (bit n.standby 1 + bit n.run 2 + bit n.store 4 + bit n.call 8 + bit n.alarm 16 + bit n.performance 32
    + bit n.reset 64)

/-- The set holds at least one kind. -/
def NoticeSet.any (n : NoticeSet) : Bool :=
  n.standby || n.run || n.store || n.call || n.alarm || n.performance || n.reset

/-- A lane's attention line is active while its notice set holds at least one kind (R183). -/
def LaneState.attention (l : LaneState) : Bool := l.notices.any

/-- A kind added to a lane's notice set. -/
def LaneState.notify (k : Notice) (l : LaneState) : LaneState := { l with notices := l.notices.add k }

/-- A kind added to the notice set of every lane (R183). -/
def State.noticeAll (k : Notice) (s : State) : State := { s with lanes := s.lanes.map (LaneState.notify k) }

/-- A kind added to the notice sets of the two lanes other than `l` (R168, R183). -/
def State.noticeOthers (l : Lane) (k : Notice) (s : State) : State :=
  match l with
  | .a => { s with lanes := { s.lanes with b := s.lanes.b.notify k, p := s.lanes.p.notify k } }
  | .b => { s with lanes := { s.lanes with a := s.lanes.a.notify k, p := s.lanes.p.notify k } }
  | .p => { s with lanes := { s.lanes with a := s.lanes.a.notify k, b := s.lanes.b.notify k } }

/-! ## Codes of enumerated values (R180) -/

/-- A lane's code; absent is 0. -/
def laneCode : Lane → Nat
  | .a => 1
  | .b => 2
  | .p => 3

/-- The lane of a code. -/
def laneOfCode : Nat → Option Lane
  | 1 => some .a
  | 2 => some .b
  | 3 => some .p
  | _ => none

/-- A lane's role: FULL is 1, PROMPT is 2 (R181). -/
def roleCode : Lane → Nat
  | .a => 1
  | .b => 1
  | .p => 2

/-- ON is 1, OFF is 2. -/
def onCode (on : Bool) : Nat := if on then 1 else 2

/-- ON or OFF of a code. -/
def onOfCode : Nat → Option Bool
  | 1 => some true
  | 2 => some false
  | _ => none

/-- The code of a clock state (R37). -/
def ClockState.code : ClockState → Nat
  | .good => 1
  | .absent => 2
  | .recovering => 3

/-- The code of a curve (10.7). -/
def Curve.code : Curve → Nat
  | .linear => 1
  | .early => 2
  | .late => 3

/-- The curve of a code (10.7). -/
def curveOfCode : Nat → Option Curve
  | 1 => some .linear
  | 2 => some .early
  | 3 => some .late
  | _ => none

/-- The code of a follow's kind (R180). -/
def Follow.kindCode : Follow → Nat
  | .none => 1
  | .afterStart _ => 2
  | .afterEnd _ => 3
  | .beats _ => 4

/-- A follow's delay or count, 0 for NONE (R180). -/
def Follow.value : Follow → Nat
  | .none => 0
  | .afterStart d => d
  | .afterEnd d => d
  | .beats n => n

/-- The code of a GO's origin (R83): A, B, P, FOLLOW. -/
def Origin.code : Origin → Nat
  | .lane l => laneCode l
  | .follow => 4

/-- The lane field with which a GO's origin is logged (R85). -/
def Origin.logLane : Origin → LogLane
  | .lane l => .lane l
  | .follow => .follow

/-- The code of a run's state (R88). -/
def RunState.code : RunState → Nat
  | .preWait => 1
  | .active => 2

/-- The code of a follow state (R88). -/
def FollowState.code : FollowState → Nat
  | .none => 1
  | .timing => 2
  | .counting => 3
  | .waitingEnd => 4

/-- The code of a polarity (R70). -/
def Polarity.code : Polarity → Nat
  | .activeHigh => 1
  | .activeLow => 2

/-- The polarity of a code (R70). -/
def polarityOfCode : Nat → Option Polarity
  | 1 => some .activeHigh
  | 2 => some .activeLow
  | _ => none

/-- The code of a log mode (R70). -/
def LogMode.code : LogMode → Nat
  | .wrap => 1
  | .hold => 2

/-- The log mode of a code (R70). -/
def logModeOfCode : Nat → Option LogMode
  | 1 => some .wrap
  | 2 => some .hold
  | _ => none

/-- The code of a call's class (R112). -/
def CallClass.code : CallClass → Nat
  | .general => 1
  | .artist => 2
  | .showStop => 3

/-- The class of a code (R113). -/
def classOfCode : Nat → Option CallClass
  | 1 => some .general
  | 2 => some .artist
  | 3 => some .showStop
  | _ => none

/-- The code of a window class (R126). -/
def WindowClass.code : WindowClass → Nat
  | .cleared => 1
  | .held => 2
  | .counted => 3

/-- The code of the record's state (R140). -/
def PerfState.code : PerfState → Nat
  | .clear => 1
  | .armed => 2
  | .running => 3
  | .interval => 4
  | .finished => 5

/-- The code of a buffer's status, EMPTY first (R159). -/
def statusCode : Option Image → Nat
  | none => 1
  | some i =>
    match i.status with
    | .opened => 2
    | .complete => 3
    | .invalid _ _ => 4

/-- The code of an invalid reason (R159). -/
def InvalidReason.code : InvalidReason → Nat
  | .range => 1
  | .label => 2
  | .count => 3
  | .kind => 4
  | .duplicate => 5
  | .overflow => 6

/-- The code of a ramp's kind, NONE first (R105). -/
def rampCode : Option Ramp → Nat
  | none => 1
  | some r =>
    match r.kind with
    | .attack => 2
    | .release => 3

/-! ## Fields that may be absent (R180) -/

/-- A cue number, 0 for END or where it is absent. -/
def cueBytes (c : Option Nat) : List Byte := be 3 (c.getD 0)

/-- A mix or NONE: 255 for NONE. -/
def mixBytes (m : Option Nat) : List Byte := be 1 (m.getD 255)

/-- A fade membership or none: 255 for none. -/
def membershipBytes (m : Option Nat) : List Byte := be 1 (m.getD 255)

/-- A field of `k` characters that may be absent: a flag, then the field, 0 when absent. -/
def optBytes (k : Nat) (x : Option Nat) : List Byte := flag x.isSome :: be k (x.getD 0)

/-- A follow: its kind, then its delay or count. -/
def followBytes (f : Follow) : List Byte := be 1 f.kindCode ++ be 3 f.value

/-- A start mode; absent is no value. -/
def startModeBytes : Option StartMode → List Byte
  | none => be 1 0 ++ be 3 0
  | some .curtain => be 1 1 ++ be 3 0
  | some (.delay d) => be 1 2 ++ be 3 d

end Sys2Proof.Machine
end

