-- ==== Sys2Proof/Machine/Ops.lean ====
section
/-! DEFINITION. The operations the blocks share: handing an event to the performance record (R153, R155, R156) and answering
a request on its lane (R178, R179). -/

namespace Sys2Proof.Machine

/-! ## Handing events to the performance record -/

/-- The record stores and counts events in RUNNING and INTERVAL alone (R155); the store is locked then (R140). -/
def PerfState.inShow : PerfState → Bool
  | .running => true
  | .interval => true
  | .clear => false
  | .armed => false
  | .finished => false

/-- A saturating counter raised by `n` (R153). -/
def raise (c n : Nat) : Nat := min Config.max16 (c + n)

/-- The counters after an event of this kind (R153). -/
def Counters.count (c : Counters) : Detail → Counters
  | .go _ => { c with gos := raise c.gos 1 }
  | .followGo _ => { c with gos := raise c.gos 1 }
  | .staleGo _ => { c with staleGos := raise c.staleGos 1 }
  | .followVoid _ => { c with voidFollows := raise c.voidFollows 1 }
  | .movesSnapped _ n => { c with snappedPoints := raise c.snappedPoints n }
  | .callLive _ _ _ => { c with callsLive := raise c.callsLive 1 }
  | .alarmSetSilent _ _ => { c with alarmsSet := raise c.alarmsSet 1 }
  | .alarmSetOver _ => { c with alarmsSet := raise c.alarmsSet 1 }
  | .performanceStart _ | .panic _ | .runRetired _ _ | .callEnd _ _ | .alarmClear _ _ | .audioFault _ | .audioRestored _
  | .inputSwap _ _ _ _ | .inputRestore _ | .intervalBegin _ | .intervalEnd _ _ | .engineReset _ _ _ _
  | .performanceEnd _ _ => c

/-- The log takes no further entry: a HOLD log of 2048 entries, or written at its greatest value (R156). -/
def Record.full (r : Record) : Bool :=
  r.written == Config.maxWritten || (r.logMode == some .hold && Config.logSize ≤ r.written)

/-- The kept entries with one more: the 2048 latest (R156). -/
def keepLatest (log : List LogEntry) (e : LogEntry) : List LogEntry :=
  (log ++ [e]).drop (log.length + 1 - Config.logSize)

/-- An entry offered to the log: stored with the next sequence number, or lost (R156). -/
def Record.offer (lane : LogLane) (cue zone : Option Nat) (d : Detail) (r : Record) : Record :=
  if r.full then { r with lost := bump Config.max16 r.lost }
  else
    { r with
      log := keepLatest r.log ⟨r.written, r.clock, lane, cue, zone, d⟩
      written := r.written + 1 }

/-- An event handed to the record: counted and offered while RUNNING or INTERVAL, without effect otherwise (R155). -/
def Record.hand (lane : LogLane) (cue zone : Option Nat) (d : Detail) (r : Record) : Record :=
  if r.state.inShow then Record.offer lane cue zone d { r with counters := r.counters.count d } else r

/-- An event handed to the record by another block. -/
def State.report (lane : LogLane) (cue zone : Option Nat) (d : Detail) (s : State) : State :=
  { s with record := s.record.hand lane cue zone d }

/-! ## Answering a request -/

/-- The status of a reply (R179). -/
inductive Status where
  | ok | refusedRole | stale | noStandby | notFound | outOfRange | locked | busy | changed | mismatch | notComplete | inUse
  | full | notLive | notPermitted | unknownRequest | malformed
deriving DecidableEq, Repr

/-- A status's code (R179). -/
def Status.code : Status → Byte
  | .ok => 0
  | .refusedRole => 1
  | .stale => 2
  | .noStandby => 3
  | .notFound => 4
  | .outOfRange => 5
  | .locked => 6
  | .busy => 7
  | .changed => 8
  | .mismatch => 9
  | .notComplete => 10
  | .inUse => 11
  | .full => 12
  | .notLive => 13
  | .notPermitted => 14
  | .unknownRequest => 15
  | .malformed => 16

/-- The characters of a reply: a frame with the request's tag, the status as its code, and the body (R179). -/
def replyChars (tag : Byte) (st : Status) (body : List Byte) : List Character := frameChars ⟨tag, st.code, body⟩

/-- The request's frame is in the lane's slot and its reply is in progress (R178). -/
def State.reply (l : Lane) (f : Frame) (st : Status) (body : List Byte) (s : State) : State :=
  s.onLane l fun ls => { ls with slot := some f, reply := some (replyChars f.tag st body) }

/-- The outcome of a request, composed as the reply on the lane it came from (R178). -/
def State.answer (i : Instr) (st : Status) (body : List Byte) (s : State) : State :=
  match requestFrame i with
  | some (l, f) => s.reply l f st body
  | none => s

/-- A request of a FULL lane's: refused REFUSED_ROLE with an empty body on Lane P (R181), else taken as `k` says. -/
def fullOnly (l : Lane) (i : Instr) (s : State) (k : State) : Host.Outcome State Fault Refusal :=
  match l with
  | .a => .next k
  | .b => .next k
  | .p => .next (s.answer i .refusedRole [])

end Sys2Proof.Machine
end

