-- ==== Sys2Proof/Machine/Operands.lean ====
section
/-! DEFINITION. What the operands of requests and actions name: targets resolved to points (R8, R45), cues and groups looked
up in the show store (R62, R67), zones of a zone set, runs of consecutive entries in a read, and the gains the audio reads. -/

namespace Sys2Proof.Machine

/-! ## The show store -/

/-- The cue of a number, if the stack holds it (R61). -/
def Store.cue? (st : Store) (n : Nat) : Option Cue := st.cues.find? fun c => c.number == n

/-- The group of an id, if the table holds it (R67). -/
def Store.group? (st : Store) (id : Nat) : Option Group := st.groups.getD id none

/-- The next cue after `x`: the least number of the stack above it, or END (R62). The stack is in ascending number order. -/
def Store.nextAfter (st : Store) (x : Nat) : Option Nat :=
  (st.cues.find? fun c => decide (x < c.number)).map (·.number)

/-- Entries of the action pool in use (R66). -/
def Store.actionsUsed (st : Store) : Nat := (st.cues.map fun c => c.actions.length).sum

/-- Free entries of the action pool (R66). -/
def Store.freeActions (st : Store) : Nat := Config.actionPool - st.actionsUsed

/-- The groups present, with their ids, in id order (R79). -/
def Store.presentGroups (st : Store) : List (Nat × Group) :=
  (mapFrom (fun k g => g.map fun g => (k, g)) 0 st.groups.toList).filterMap id

/-- Entries of the group member pool in use (R67). -/
def Store.membersUsed (st : Store) : Nat := (st.presentGroups.map fun g => g.2.members.length).sum

/-- Free entries of the group member pool (R67). -/
def Store.freeMembers (st : Store) : Nat := Config.groupPool - st.membersUsed

/-- The group an action names, if its target is one (R65). -/
def Action.groupNamed : Action → Option Nat
  | .level (.group g) _ _ _ _ => some g
  | .halt (.group g) => some g
  | .level (.point _) _ _ _ _ => none
  | .halt (.point _) => none
  | .route _ _ => none
  | .mask _ _ => none
  | .trigger _ _ => none

/-- A group's reference count: the cues that name it in at least one LEVEL or HALT action (R68). -/
def Store.references (st : Store) (id : Nat) : Nat :=
  (st.cues.filter fun c => c.actions.any fun a => a.groupNamed == some id).length

/-- The edit count of a cue number, 0 when absent (R69). -/
def Store.cueEdit (st : Store) (n : Nat) : Nat := ((st.cue? n).map (·.editCount)).getD 0

/-- The edit count of a group id, 0 when absent (R69). -/
def Store.groupEdit (st : Store) (id : Nat) : Nat := ((st.group? id).map (·.editCount)).getD 0

/-! ## Targets -/

/-- The points an action's target resolves to when it is taken, in order (R45). -/
def Store.resolve (st : Store) : ActTarget → List Nat
  | .point n => if n < Config.points then [n] else []
  | .group id => ((st.group? id).map (·.members)).getD []

/-- What a desk request's target resolves to (R8): its points, or the refusal. -/
inductive Resolved where
  | points (ps : List Nat)
  | refused (st : Status)
deriving DecidableEq, Repr

/-- A desk request's target: POINT, GROUP, or ALL where the request accepts it (R8). -/
def Store.resolveRequest (st : Store) (acceptsAll : Bool) (t : Target) : Resolved :=
  match t.kind with
  | 1 => if t.number < Config.points then .points [t.number] else .refused .notFound
  | 2 =>
    match st.group? t.number with
    | some g => .points g.members
    | none => .refused .notFound
  | 3 => if acceptsAll then .points (List.range Config.points) else .refused .malformed
  | _ => .refused .malformed

/-! ## Zone sets and runs of entries -/

/-- The zones of a set in ascending order. -/
def zoneList (z : ZoneSet) : List Nat := (List.range Config.zones).filter fun k => z.getLsbD k

/-- The lowest-numbered zone of a set (R115). -/
def lowestZone (z : ZoneSet) : Option Nat := (zoneList z).head?

/-- The entries of a read from `first`, `count` of them, ended at the last of `size` (R18, R59, R125). -/
def runOf (size first count : Nat) : List Nat := (List.range size).filter fun k => first ≤ k && k < first + count

/-! ## Gains, and the level on a line -/

/-- The gain of a point as the level table derives it (R6). -/
def State.gainOf (s : State) (p : Nat) : Nat := gain (s.point p).effective

/-- The line is being driven at its active level (R99). -/
def LineState.driven : LineState → Bool
  | .idle => false
  | .active => true
  | .pulse _ => true
  | .repeating on _ _ _ => on

/-- The level on a trigger line, high or low, from its state and its polarity in the store (R70, R99). -/
def State.lineHigh (s : State) (n : Nat) : Bool :=
  match s.store.triggerSetup.polarity.getD n .activeHigh with
  | .activeHigh => (s.line n).driven
  | .activeLow => !(s.line n).driven

/-- A zone's route set (R106, R107). -/
def State.setRoute (z : Nat) (m : Option Nat) (s : State) : State := s.onZone z fun x => { x with route := m }

/-- A mix's mask flag set (R32, R33). -/
def State.setMask (m : Nat) (on : Bool) (s : State) : State := { s with masks := s.masks.update m fun _ => on }

/-- The slots in use. -/
def State.usedSlots (s : State) : List FadeSlot := s.slots.toList.filterMap id

/-- The entries of the member pool in use (R39). -/
def State.poolUsed (s : State) : Nat := (s.usedSlots.map fun k => k.members.length).sum

/-- The free entries of the member pool (R39). -/
def State.poolFree (s : State) : Nat := Config.memberPool - s.poolUsed

/-- The lowest-numbered FREE slot (R48). -/
def State.freeSlot? (s : State) : Option Nat := (List.range Config.slots).find? fun k => (s.slot k).isNone

/-- The number of FREE slots (R59). -/
def State.freeSlots (s : State) : Nat := Config.slots - s.usedSlots.length

end Sys2Proof.Machine
end

