-- ==== Sys2Proof/Machine/Runs.lean ====
section
/-! DEFINITION. The run list: looking a run up, changing it, taking freeing and snap reports into it, and its completion
(R88 to R93). -/

namespace Sys2Proof.Machine

/-- The run of a cue; the list holds at most one (R89). -/
def State.run? (s : State) (c : Nat) : Option Run := s.runner.runs.find? fun r => r.cue == c

/-- The runs of a cue changed by `f`. -/
def State.onRun (c : Nat) (f : Run → Run) (s : State) : State :=
  { s with runner := { s.runner with runs := s.runner.runs.map fun r => if r.cue = c then f r else r } }

/-- A run leaves the list, and the RUN notice is added to every lane (R89). -/
def State.dropRun (c : Nat) (s : State) : State :=
  State.noticeAll .run { s with runner := { s.runner with runs := s.runner.runs.filter fun r => r.cue != c } }

/-- The run is ACTIVE, owns no slot and has follow state NONE (R92). -/
def Run.isDone (r : Run) : Bool := r.state == .active && r.slots == 0 && r.followState == .none

/-- A run that is done leaves the list (R92). -/
def State.checkCompletion (c : Nat) (s : State) : State :=
  match s.run? c with
  | some r => if r.isDone then s.dropRun c else s
  | none => s

/-- One slot of the run has freed; at cue end a waiting AFTER_END follow begins timing (R91, R93). -/
def Run.slotFreed (r : Run) : Run :=
  let slots := r.slots - 1
  match slots, r.followState with
  | 0, .waitingEnd => { r with slots := slots, followState := .timing, followRemaining := r.follow.value }
  | _, _ => { r with slots := slots }

/-- The cue runner takes a freeing report into the owner's run (R54, R91, R92). -/
def State.freeingReport (c : Nat) (s : State) : State := (s.onRun c Run.slotFreed).checkCompletion c

/-- The cue runner takes a snap report: the owner's run counts the points, and MOVES_SNAPPED is reported with the cue whose
action it was (R91). -/
def State.snapReport (owner : Option Nat) (cue index points : Nat) (s : State) : State :=
  let counted :=
    match owner with
    | some c => s.onRun c fun r => { r with snapped := r.snapped + points }
    | none => s
  counted.report .engine (some cue) none (.movesSnapped index points)

end Sys2Proof.Machine
end

