-- ==== Sys2Proof/Machine/Fades.lean ====
section
/-! DEFINITION. The fade unit: how points leave their slots (R46, R51 to R53), how a move starts or snaps (R45 to R50), how
slots advance and complete (R41 to R44), and how PANIC and the engine reset freeze them (R57, R58). Then the commands
FADE_ADVANCE, FADE_COMPLETION and FADE_STATUS. -/

namespace Sys2Proof.Machine

/-! ## Writes of the level table (R2, R19) -/

/-- A base written to a point, within its range (R2). -/
def State.setBase (p : Nat) (x : Int) (s : State) : State := s.onPoint p fun q => { q with base := clampBase x }

/-- A trim written to a point, within its range (R2). -/
def State.setTrim (p : Nat) (x : Int) (s : State) : State := s.onPoint p fun q => { q with trim := clampTrim x }

/-- A fade membership recorded (R19). -/
def State.setMembership (p : Nat) (k : Option Nat) (s : State) : State := s.onPoint p fun q => { q with membership := k }

/-- A report that a slot of this owner has freed; a slot with owner none sends none (R53, R54). -/
def State.reportFreed (owner : Option Nat) (s : State) : State :=
  match owner with
  | some c => s.freeingReport c
  | none => s

/-! ## Leaving a slot -/

/-- A point leaves its slot, if it is in one, keeping its base; a slot whose last member leaves frees at once with an EMPTIED
report to its owner (R46, R51, R52, R53). -/
def State.leave (p : Nat) (s : State) : State :=
  match (s.point p).membership with
  | none => s
  | some k =>
    match s.slot k with
    | none => s.setMembership p none
    | some f =>
      let rest := f.members.filter fun m => m.point != p
      if rest.isEmpty then ((s.setMembership p none).setSlot k none).reportFreed f.owner
      else (s.setMembership p none).setSlot k (some { f with members := rest })

/-- Points leave their slots in order: takeover (R46) and HALT (R51). -/
def State.leaveAll (ps : List Nat) (s : State) : State := ps.foldl (fun s p => s.leave p) s

/-! ## Starting a move -/

/-- The start level of a point: its effective level with clear-trims set, its base otherwise (R47). -/
def Point.startLevel (clear : Bool) (q : Point) : Int := if clear then q.effective else q.base

/-- The capture of a clear-trims move: the base becomes the effective level and the trim 0, in one write (R47). -/
def Point.capture (clear : Bool) (q : Point) : Point :=
  if clear then { q with base := clampBase q.effective, trim := 0 } else q

/-- A level written at once: the base is the level and, with clear-trims set, the trim 0 (R49, R50). -/
def Point.jump (level : Int) (clear : Bool) (q : Point) : Point :=
  { q with base := clampBase level, trim := if clear then 0 else q.trim }

/-- Points changed in order. -/
def State.onPoints (ps : List Nat) (f : Point → Point) (s : State) : State := ps.foldl (fun s p => s.onPoint p f) s

/-- The slot is given to a move: its members joined, its points captured, and the owner's run counts it (R48, R91). -/
def State.startMove (k : Nat) (owner : Option Nat) (index : Nat) (ps : List Nat) (level : Int) (time : Nat)
    (curve : Curve) (clear : Bool) (s : State) : State :=
  let members := ps.map fun p => ⟨p, (s.point p).startLevel clear⟩
  let joined := s.onPoints ps fun q => { q.capture clear with membership := some k }
  let taken := joined.setSlot k (some ⟨owner, index, level, time, curve, 0, members⟩)
  match owner with
  | some c => taken.onRun c fun r => { r with slots := r.slots + 1 }
  | none => taken

/-- A LEVEL action with its points resolved and taken over: written at once with fade time 0 (R50), else given the lowest
FREE slot if there is one and the pool has its entries (R48), else snapped whole with a snap report (R49). -/
def State.moveLevels (owner : Option Nat) (cue index : Nat) (ps : List Nat) (level : Int) (time : Nat) (curve : Curve)
    (clear : Bool) (s : State) : State :=
  if time = 0 then s.onPoints ps (Point.jump level clear)
  else
    match s.freeSlot? with
    | some k =>
      if ps.length ≤ s.poolFree then s.startMove k owner index ps level time curve clear
      else (s.onPoints ps (Point.jump level clear)).snapReport owner cue index ps.length
    | none => (s.onPoints ps (Point.jump level clear)).snapReport owner cue index ps.length

/-- A LEVEL action (R45 to R50). An action that resolves to no point, which the store's reference rule keeps from arising
(R65), does nothing. -/
def State.levelAction (owner : Option Nat) (cue index : Nat) (target : ActTarget) (level : Int) (time : Nat) (curve : Curve)
    (clear : Bool) (s : State) : State :=
  let ps := s.store.resolve target
  if ps.isEmpty then s else (s.leaveAll ps).moveLevels owner cue index ps level time curve clear

/-- A HALT action (R51). -/
def State.haltAction (target : ActTarget) (s : State) : State := s.leaveAll (s.store.resolve target)

/-! ## Advance and completion -/

/-- The members of a completing slot: the target as base, and out of the slot (R44). -/
def State.completeMembers (f : FadeSlot) (s : State) : State :=
  s.onPoints (f.members.map (·.point)) fun q => { q with base := clampBase f.target, membership := none }

/-- The completion of a slot: target written, entries returned, FREE, and a COMPLETED report to its owner (R44). -/
def State.completeSlot (k : Nat) (s : State) : State :=
  match s.slot k with
  | none => s
  | some f => ((s.completeMembers f).setSlot k none).reportFreed f.owner

/-- The bases of a slot's members at shaped progress `p` (R43). -/
def State.writeFade (f : FadeSlot) (p : Nat) (s : State) : State :=
  f.members.foldl (fun s m => s.setBase m.point (fadeBase m.start f.target p)) s

/-- One millisecond of one slot: the advance that brings the elapsed time to the duration is its completion (R41). -/
def State.advanceSlot (k : Nat) (s : State) : State :=
  match s.slot k with
  | none => s
  | some f =>
    let t := f.elapsed + 1
    if f.duration ≤ t then s.completeSlot k
    else (s.writeFade f (f.curve.shape (progress t f.duration))).setSlot k (some { f with elapsed := t })

/-- One millisecond of every slot in use, in slot order (R41). -/
def State.advanceSlots (s : State) : State := (List.range Config.slots).foldl (fun s k => s.advanceSlot k) s

/-! ## Freezing and orphaning -/

/-- Every slot frees without a report, every point keeping its base (R57, R58). -/
def State.freezeFades (s : State) : State :=
  { s with
    slots := .replicate _ none
    points := s.points.mapIdx fun _ q => { q with membership := none } }

/-- Every slot whose owner is the cue has its owner set to none (R55). -/
def State.orphan (c : Nat) (s : State) : State :=
  { s with slots := s.slots.mapIdx fun _ f => f.map fun f => if f.owner = some c then { f with owner := none } else f }

/-! ## Commands -/

/-- FADE_ADVANCE: a millisecond of every slot in use (R41). -/
def execFadeAdvance (s : State) : Host.Outcome State Fault Refusal := .next s.advanceSlots

/-- FADE_COMPLETION: the slot's elapsed time reaches its duration (R44); a FREE slot has no completion (R56). -/
def execFadeCompletion (slot : Nat) (s : State) : Host.Outcome State Fault Refusal := .next (s.completeSlot slot)

/-- The entry of one slot in a FADE STATUS reply: FREE is 1, IN USE is 2 (R59). -/
def fadeEntry (k : Nat) : Option FadeSlot → List Byte
  | none => be 1 k ++ be 1 1
  | some f =>
    be 1 k ++ be 1 2 ++ cueBytes f.owner ++ be 1 f.actionIndex ++ signed f.target ++ be 3 f.duration
      ++ be 1 f.curve.code ++ be 3 f.elapsed ++ be 1 f.members.length

/-- FADE STATUS (R59). -/
def execFadeStatus (lane : Lane) (tag : Byte) (first count : Nat) (s : State) : Host.Outcome State Fault Refusal :=
  let i := Instr.fadeStatus lane tag first count
  if Config.slots ≤ first then .next (s.answer i .notFound [])
  else if count = 0 || 8 < count then .next (s.answer i .outOfRange [])
  else
    let ks := runOf Config.slots first count
    .next (s.answer i .ok
      (be 1 s.freeSlots ++ be 2 s.poolFree ++ be 1 ks.length ++ ks.flatMap fun k => fadeEntry k (s.slot k)))

end Sys2Proof.Machine
end

