-- ==== Sys2Proof/Machine/Recorder.lean ====
section
/-! DEFINITION. The performance record's own steps and requests: arming and starting (R142 to R145), the clock (R146), the
intervals (R147, R148), finishing and clearing (R149 to R151), and the reads (R157, R158) with the log entry's layout (10.7). -/

namespace Sys2Proof.Machine

/-! ## Starting -/

/-- The start of a performance: RUNNING at clock 0, PERFORMANCE_START stored, the PERFORMANCE notice added (R143). -/
def State.startPerformance (lane : LogLane) (cue : Option Nat) (s : State) : State :=
  let mode := s.record.startMode.getD .curtain
  let running := { s with record := { s.record with state := .running, clock := 0, delayRemaining := 0 } }
  (running.report lane cue none (.performanceStart mode)).noticeAll .performance

/-- The record waits for a GO of a curtain cue (R145). -/
def Record.awaitsCurtain (r : Record) : Bool := r.state == .armed && r.startMode == some .curtain

/-- The record waits for its arming delay (R144). -/
def Record.awaitsDelay (r : Record) : Bool :=
  r.state == .armed && (match r.startMode with | some (.delay _) => true | _ => false)

/-- ARM (R142). -/
def execArm (lane : Lane) (tag : Byte) (mode delay : Nat) (s : State) : Host.Outcome State Fault Refusal :=
  let i := Instr.arm lane tag mode delay
  let m : Option StartMode := match mode with | 1 => some .curtain | 2 => some (.delay delay) | _ => none
  match m with
  | none => .next (s.answer i .malformed [])
  | some m =>
    if mode = 2 && 3600000 < delay then .next (s.answer i .outOfRange [])
    else if s.record.state != .clear then .next (s.answer i .notPermitted [])
    else
      let armed := { s with record := { s.record with
        state := .armed
        startMode := some m
        logMode := some s.store.showSetup.logMode
        delayRemaining := if mode = 2 then delay else 0 } }
      let noticed := armed.noticeAll .performance
      let after := if m = .delay 0 then noticed.startPerformance (.lane lane) none else noticed
      .next (after.answer i .ok
        (be 1 after.record.state.code ++ startModeBytes (some m) ++ be 1 s.store.showSetup.logMode.code))

/-- DELAY_EXPIRY: the arming delay reaches 0 and the performance starts (R144); without an arming delay nothing is due. -/
def execDelayExpiry (s : State) : Host.Outcome State Fault Refusal :=
  .next (if s.record.awaitsDelay then s.startPerformance .engine none else s)

/-! ## The clock -/

/-- One millisecond of the performance clock (R146). -/
def Record.tickClock (r : Record) : Record :=
  if r.state.inShow then { r with clock := bump Config.maxClock r.clock } else r

/-- PERFORMANCE_CLOCK_MILLISECOND (R146). -/
def execPerformanceClockMillisecond (s : State) : Host.Outcome State Fault Refusal :=
  .next { s with record := s.record.tickClock }

/-! ## Intervals -/

/-- INTERVAL BEGIN (R147). -/
def execIntervalBegin (lane : Lane) (tag : Byte) (s : State) : Host.Outcome State Fault Refusal :=
  let i := Instr.intervalBegin lane tag
  if s.record.state != .running then .next (s.answer i .notPermitted [])
  else if 4 ≤ s.record.intervals.length then .next (s.answer i .full [])
  else
    let n := s.record.intervals.length + 1
    let now := s.record.clock
    let opened := { s with record := { s.record with
      intervals := s.record.intervals ++ [Interval.mk n now none], state := .interval } }
    let logged := opened.report (.lane lane) none none (.intervalBegin n)
    .next ((logged.noticeAll .performance).answer i .ok (be 1 n ++ be 4 now))

/-- The open interval closed at the time given; closed intervals stay (R148, R149). -/
def closeIntervals (time : Nat) (is : List Interval) : List Interval :=
  is.map fun x => if x.endTime.isNone then { x with endTime := some time } else x

/-- The open interval, if any: the last one (R140). -/
def Record.openInterval (r : Record) : Option Interval :=
  match r.intervals.getLast? with
  | some x => if x.endTime.isNone then some x else none
  | none => none

/-- INTERVAL END (R148). -/
def execIntervalEnd (lane : Lane) (tag : Byte) (s : State) : Host.Outcome State Fault Refusal :=
  let i := Instr.intervalEnd lane tag
  if s.record.state != .interval then .next (s.answer i .notPermitted [])
  else
    let now := s.record.clock
    let x := s.record.openInterval.getD ⟨0, now, none⟩
    let closed := { s with record := { s.record with
      intervals := closeIntervals now s.record.intervals, state := .running } }
    let logged := closed.report (.lane lane) none none (.intervalEnd x.number (now - x.beginTime))
    .next ((logged.noticeAll .performance).answer i .ok (be 1 x.number ++ be 4 x.beginTime ++ be 4 now))

/-! ## Finishing and clearing -/

/-- The reply of a FINISH: the final clock, the number of intervals, never-started (R149, R150). -/
def finishBytes (r : Record) : List Byte := be 4 r.clock ++ be 1 r.intervals.length ++ [flag r.neverStarted]

/-- A performance finished from RUNNING or INTERVAL: PERFORMANCE_END stored before the state changes (R149). -/
def State.endPerformance (lane : Lane) (s : State) : State :=
  let logged := s.report (.lane lane) none none
    (.performanceEnd s.record.intervals.length s.record.openInterval.isSome)
  State.noticeAll .performance { logged with record := { logged.record with
    intervals := closeIntervals s.record.clock logged.record.intervals, state := .finished } }

/-- A performance finished from ARMED, never started; nothing is stored (R150). -/
def State.abandonPerformance (s : State) : State :=
  State.noticeAll .performance { s with record := { s.record with
    state := .finished, neverStarted := true, delayRemaining := 0 } }

/-- FINISH (R149, R150). -/
def execFinish (lane : Lane) (tag : Byte) (s : State) : Host.Outcome State Fault Refusal :=
  let i := Instr.finish lane tag
  match s.record.state with
  | .running => let t := s.endPerformance lane; .next (t.answer i .ok (finishBytes t.record))
  | .interval => let t := s.endPerformance lane; .next (t.answer i .ok (finishBytes t.record))
  | .armed => let t := s.abandonPerformance; .next (t.answer i .ok (finishBytes t.record))
  | .clear => .next (s.answer i .notPermitted [])
  | .finished => .next (s.answer i .notPermitted [])

/-- RECORD CLEAR: outcome CLEARED is 1, ALREADY_CLEAR is 2 (R151). -/
def execRecordClear (lane : Lane) (tag : Byte) (s : State) : Host.Outcome State Fault Refusal :=
  let i := Instr.recordClear lane tag
  match s.record.state with
  | .finished => .next ((State.noticeAll .performance { s with record := {} }).answer i .ok (be 1 1))
  | .clear => .next (s.answer i .ok (be 1 2))
  | .armed => .next (s.answer i .notPermitted [])
  | .running => .next (s.answer i .notPermitted [])
  | .interval => .next (s.answer i .notPermitted [])

/-! ## The log entry's layout (10.7) -/

/-- A kind's number, in the order of R154's table. -/
def Detail.kindNumber : Detail → Nat
  | .performanceStart _ => 1
  | .go _ => 2
  | .followGo _ => 3
  | .staleGo _ => 4
  | .followVoid _ => 5
  | .panic _ => 6
  | .runRetired _ _ => 7
  | .movesSnapped _ _ => 8
  | .callLive _ _ _ => 9
  | .callEnd _ _ => 10
  | .alarmSetSilent _ _ => 11
  | .alarmSetOver _ => 11
  | .alarmClear _ _ => 12
  | .audioFault _ => 13
  | .audioRestored _ => 14
  | .inputSwap _ _ _ _ => 15
  | .inputRestore _ => 15
  | .intervalBegin _ => 16
  | .intervalEnd _ _ => 17
  | .engineReset _ _ _ _ => 18
  | .performanceEnd _ _ => 19

/-- A flag in bit `k` of a detail. -/
def bitAt (k : Nat) (b : Bool) : Nat := if b then 2 ^ k else 0

/-- A number in the bits from `k` on of a detail. -/
def fieldAt (k n : Nat) : Nat := n * 2 ^ k

/-- The code of an end's reason (10.7). -/
def EndReason.code : EndReason → Nat
  | .closed => 1
  | .timeout => 2
  | .preempted => 3

/-- The code of a clearing's cause (10.7). -/
def ClearCause.code : ClearCause → Nat
  | .deliberate => 0
  | .signal => 1
  | .disabled => 2
  | .ack => 3

/-- A detail as its 32-bit value (10.7). -/
def Detail.value : Detail → Nat
  | .performanceStart .curtain => 0
  | .performanceStart (.delay d) => bitAt 31 true + d
  | .go c => c.getD 0
  | .followGo c => c.getD 0
  | .staleGo c => c.getD 0
  | .followVoid c => c.getD 0
  | .panic n => n
  | .runRetired cause cut => bitAt 0 (cause == .listFull) + bitAt 1 cut
  | .movesSnapped index n => n + fieldAt 8 index
  | .callLive cls n arrival => arrival + fieldAt 16 n + fieldAt 24 cls.code
  | .callEnd reason arrival => arrival + fieldAt 24 reason.code
  | .alarmSetSilent level hold => hold + fieldAt 16 (-level).toNat
  | .alarmSetOver n => bitAt 31 true + n
  | .alarmClear isOver cause => bitAt 31 isOver + cause.code
  | .audioFault n => n
  | .audioRestored ms => ms
  | .inputSwap x xi y yi => x + fieldAt 8 xi + fieldAt 16 y + fieldAt 24 yi
  | .inputRestore n => bitAt 31 true + n
  | .intervalBegin n => fieldAt 28 n
  | .intervalEnd n length => fieldAt 28 n + length
  | .engineReset runs slots waiting live =>
    runs + fieldAt 5 slots + fieldAt 11 waiting + bitAt 15 live.isSome + fieldAt 16 (live.getD 0)
  | .performanceEnd n closed => n + bitAt 3 closed

/-- The lane bits of a log entry's character 8 (10.7). -/
def LogLane.code : LogLane → Nat
  | .lane l => laneCode l
  | .follow => 4
  | .engine => 5

/-- A log entry in its 16 characters (10.7). -/
def LogEntry.chars (e : LogEntry) : List Byte :=
  be 4 e.seq ++ be 4 (fieldAt 27 e.detail.kindNumber + e.time)
    ++ be 1 (e.lane.code + bitAt 3 e.cue.isSome + bitAt 4 e.zone.isSome)
    ++ (match e.cue with | some c => be 3 c | none => be 3 (e.zone.getD 0))
    ++ be 4 e.detail.value

/-! ## Reads -/

/-- The seq of the oldest kept entry: 0 in HOLD mode and while written is at most 2048, written − 2048 otherwise (R157). -/
def Record.oldest (r : Record) : Nat := if r.logMode = some .hold then 0 else r.written - Config.logSize

/-- The entries a READ LOG from `k` carries: up to 8 kept entries at or after `k` (R157). -/
def Record.entriesFrom (r : Record) (k : Nat) : List LogEntry :=
  if r.written ≤ k then [] else (r.log.filter fun e => decide (k ≤ e.seq)).take 8

/-- Entries from `k` on have been overwritten (R157). -/
def Record.gap (r : Record) (k : Nat) : Bool := k < r.written && k < r.oldest

/-- The next sequence a READ LOG from `k` states (R157). -/
def nextSeq (k : Nat) (es : List LogEntry) : Nat := ((es.getLast?).map fun e => e.seq + 1).getD k

/-- READ LOG (R157). -/
def execReadLog (lane : Lane) (tag : Byte) (fromSeq : Nat) (s : State) : Host.Outcome State Fault Refusal :=
  let i := Instr.readLog lane tag fromSeq
  let r := s.record
  let es := r.entriesFrom fromSeq
  .next (s.answer i .ok
    (be 1 r.state.code ++ be 1 ((r.logMode.map LogMode.code).getD 0) ++ be 4 r.written ++ be 2 r.lost
      ++ be 4 r.oldest ++ [flag (r.gap fromSeq)] ++ be 1 es.length ++ be 4 (nextSeq fromSeq es)
      ++ es.flatMap LogEntry.chars))

/-- The characters of an interval (R158). -/
def Interval.chars (x : Interval) : List Byte := be 1 x.number ++ be 4 x.beginTime ++ optBytes 4 x.endTime

/-- The characters of the counters (R158). -/
def Counters.chars (c : Counters) : List Byte :=
  be 2 c.gos ++ be 2 c.staleGos ++ be 2 c.voidFollows ++ be 2 c.snappedPoints ++ be 2 c.callsLive ++ be 2 c.alarmsSet

/-- RECORD STATUS (R158); the oldest kept entry is absent while nothing is written. -/
def execRecordStatus (lane : Lane) (tag : Byte) (s : State) : Host.Outcome State Fault Refusal :=
  let r := s.record
  .next (s.answer (.recordStatus lane tag) .ok
    (be 1 r.state.code ++ startModeBytes r.startMode ++ be 3 r.delayRemaining
      ++ be 1 ((r.logMode.map LogMode.code).getD 0) ++ [flag r.neverStarted] ++ be 4 r.clock
      ++ be 1 r.intervals.length ++ r.intervals.flatMap Interval.chars ++ r.counters.chars
      ++ be 4 r.written ++ be 2 r.lost ++ optBytes 4 (if r.written = 0 then none else some r.oldest)))

end Sys2Proof.Machine
end

