-- ==== Sys2Proof/Machine/CueRunner.lean ====
section
/-! DEFINITION. The cue runner: dispatch of a run's actions (R90), follows (R93, R94), retirement (R97), the steps of a GO
(R84 to R86), beats (R96), PANIC (R98), trigger lines (R99 to R101) and its requests. -/

namespace Sys2Proof.Machine

/-! ## Trigger lines -/

/-- The state a TRIGGER action puts its line into (R100, R101). -/
def TriggerMode.lineState : TriggerMode → LineState
  | .pulse w => .pulse w
  | .set => .active
  | .clear => .idle
  | .repeating t n => .repeating true (t / 2) n t

/-- A repeating line whose remaining time has reached 0: the phase turns, a new turn begins, or the line is IDLE (R101). -/
def LineState.phaseEnd : LineState → LineState
  | .repeating true _ n t => .repeating false (t - t / 2) n t
  | .repeating false _ n t => if n ≤ 1 then .idle else .repeating true (t / 2) (n - 1) t
  | .idle => .idle
  | .active => .active
  | .pulse r => .pulse r

/-- A pulsing line whose remaining time has reached 0 (R100). -/
def LineState.pulseEnd : LineState → LineState
  | .pulse _ => .idle
  | .idle => .idle
  | .active => .active
  | .repeating on r n t => .repeating on r n t

/-- One millisecond of a line (R100, R101). -/
def LineState.tick : LineState → LineState
  | .pulse r => if r ≤ 1 then .idle else .pulse (r - 1)
  | .repeating on r n t => if r ≤ 1 then LineState.phaseEnd (.repeating on r n t) else .repeating on (r - 1) n t
  | .idle => .idle
  | .active => .active

/-- Every line IDLE (R82, R98). -/
def State.idleLines (s : State) : State := { s with runner := { s.runner with lines := .replicate _ .idle } }

/-! ## Dispatch -/

/-- One action handed to the block that owns what it changes (R90); `owner` is none in the dispatch of a retired run. -/
def State.handAction (owner : Option Nat) (cue index : Nat) (act : Action) (s : State) : State :=
  match act with
  | .level target level time curve clear => s.levelAction owner cue index target level time curve clear
  | .route zone mix => s.setRoute zone mix
  | .mask mix on => s.setMask mix on
  | .trigger line mode => s.setLine line mode.lineState
  | .halt target => s.haltAction target

/-- Actions handed over in index order, the first with index `k` (R90). -/
def handActions (owner : Option Nat) (cue : Nat) : Nat → List Action → State → State
  | _, [], s => s
  | k, x :: xs, s => handActions owner cue (k + 1) xs (s.handAction owner cue k x)

/-- A cue's action list as the store holds it (R90). -/
def State.actionsOf (s : State) (c : Nat) : List Action := ((s.store.cue? c).map (·.actions)).getD []

/-- A run whose actions have been handed over: ACTIVE, no pre-wait, and its AFTER_START or AFTER_END follow begun (R93). -/
def Run.dispatched (r : Run) : Run :=
  let active := { r with state := .active, preWait := 0 }
  match r.follow with
  | .afterStart d => { active with followState := .timing, followRemaining := d }
  | .afterEnd d =>
    if r.slots = 0 then { active with followState := .timing, followRemaining := d }
    else { active with followState := .waitingEnd, followRemaining := 0 }
  | .beats _ => active
  | .none => active

/-- The dispatch of a run, taken whole (R90). The run is marked ACTIVE when its last action has been handed over, so that the
reports its own actions cause cannot complete it before (R90). -/
def State.dispatch (c : Nat) (s : State) : State :=
  let handed := handActions (some c) c 0 (s.actionsOf c) s
  ((handed.onRun c Run.dispatched).checkCompletion c).noticeAll .run

/-! ## Retirement -/

/-- A run retired before a GO of the given origin: its slots orphaned, a pending pre-wait cut and its actions dispatched with
owner none, its follow cancelled, and RUN_RETIRED reported (R97). -/
def State.retire (c : Nat) (cause : RetireCause) (origin : Origin) (s : State) : State :=
  match s.run? c with
  | none => s
  | some r =>
    let cut := r.state == .preWait
    let orphaned := s.orphan c
    let handed :=
      if cut then (handActions none c 0 (s.actionsOf c) orphaned).noticeAll .run else orphaned
    (handed.dropRun c).report origin.logLane (some c) none (.runRetired cause cut)

/-! ## Taking a GO -/

/-- The run a GO of the cue makes (R88). -/
def newRun (rec : Cue) (origin : Origin) : Run where
  cue := rec.number
  origin := origin
  state := .preWait
  preWait := rec.preWait
  follow := rec.follow
  followState := match rec.follow with | .beats _ => .counting | _ => .none
  followRemaining := match rec.follow with | .beats n => n | _ => 0
  slots := 0
  snapped := 0

/-- Steps 1 and 2 of a GO: the old run of the cue is retired, then the oldest run of a full list (R85). -/
def State.makeRoom (c : Nat) (origin : Origin) (s : State) : State :=
  let once := s.retire c .sameCue origin
  match once.runner.runs with
  | [] => once
  | r :: rs => if Config.runLimit ≤ rs.length + 1 then once.retire r.cue .listFull origin else once

/-- Steps 3 and 4 of a GO: the run joins the tail of the list and standby moves on (R85). -/
def State.addRun (rec : Cue) (origin : Origin) (s : State) : State :=
  { s with runner := { s.runner with
    runs := s.runner.runs ++ [newRun rec origin]
    standby := s.store.nextAfter rec.number } }

/-- Step 6 of a GO: a GO of a curtain cue starts a performance that waits for one (R85, R145). -/
def State.startByCurtain (rec : Cue) (origin : Origin) (s : State) : State :=
  if rec.curtain && s.record.awaitsCurtain then s.startPerformance origin.logLane (some rec.number) else s

/-- The event with which a GO is reported (R85 step 7). -/
def goDetail (origin : Origin) (standby : Option Nat) : Detail :=
  match origin with
  | .lane _ => .go standby
  | .follow => .followGo standby

/-- Steps 5, 7 and 8 of a GO: the last-GO record with the show time read after step 6, the report, and the notices (R85). -/
def State.recordGo (rec : Cue) (origin : Origin) (s : State) : State :=
  let marked := { s with runner := { s.runner with lastGo := some ⟨rec.number, origin, s.record.clock⟩ } }
  let logged := marked.report origin.logLane (some rec.number) none (goDetail origin s.runner.standby)
  (logged.noticeAll .standby).noticeAll .run

/-- A GO of a cue taken: the nine steps of R85 in their order. -/
def State.takeGo (rec : Cue) (origin : Origin) (s : State) : State :=
  let recorded := (((s.makeRoom rec.number origin).addRun rec origin).startByCurtain rec origin).recordGo rec origin
  if rec.preWait = 0 then recorded.dispatch rec.number else recorded

/-- The standby cue's record, if standby is not END (R72). -/
def State.standbyCue (s : State) : Option Cue := s.runner.standby.bind s.store.cue?

/-- The lane may GO the cue: a FULL lane any cue, Lane P a prompt-callable one (R84). -/
def mayGo (lane : Lane) (rec : Cue) : Bool :=
  match lane with
  | .a => true
  | .b => true
  | .p => rec.promptCallable

/-- The GO's step 6 starts the performance (R85). -/
def State.goStarts (rec : Cue) (s : State) : Bool := rec.curtain && s.record.awaitsCurtain

/-- An expected standby outside 1–9,999,999 (R84). -/
def expectedOutOfRange : Option Nat → Bool
  | none => false
  | some c => c == 0 || Config.maxCue < c

/-- An expected standby that is not standby (R84). -/
def State.isStale (expected : Option Nat) (s : State) : Bool :=
  match expected with
  | none => false
  | some c => s.runner.standby != some c

/-- GO (R84, R85). -/
def execGo (lane : Lane) (tag : Byte) (expected : Option Nat) (s : State) : Host.Outcome State Fault Refusal :=
  let i := Instr.go lane tag expected
  if expectedOutOfRange expected then .next (s.answer i .outOfRange [])
  else
    match s.standbyCue with
    | none => .next (s.answer i .noStandby [])
    | some rec =>
      if s.isStale expected then
        .next ((s.report (.lane lane) expected none (.staleGo s.runner.standby)).answer i .stale (cueBytes s.runner.standby))
      else if mayGo lane rec then
        let t := s.takeGo rec (.lane lane)
        .next (t.answer i .ok
          (be 3 rec.number ++ cueBytes (s.store.nextAfter rec.number) ++ [flag (s.goStarts rec)]))
      else .next (s.answer i .refusedRole (cueBytes s.runner.standby))

/-! ## Follows -/

/-- The follow is in progress and can expire: TIMING or COUNTING (R93). -/
def Run.followRuns (r : Run) : Bool := r.followState == .timing || r.followState == .counting

/-- The expiry of a run's follow, and the cue it GOes, if any: a GO of the next cue after the run's when that is standby, a
void follow otherwise (R94). A run with no follow in progress has no expiry. -/
def State.expireFollow (c : Nat) (s : State) : State × Option Nat :=
  match s.run? c with
  | none => (s, none)
  | some r =>
    if r.followRuns then
      let ended := s.onRun c fun r => { r with followState := .none, followRemaining := 0 }
      let target := s.store.nextAfter c
      match s.standbyCue with
      | some rec =>
        if target = some rec.number then ((ended.checkCompletion c).takeGo rec .follow, some rec.number)
        else (((ended.report .follow (some c) none (.followVoid target)).checkCompletion c).noticeAll .run, none)
      | none => (((ended.report .follow (some c) none (.followVoid target)).checkCompletion c).noticeAll .run, none)
    else (s, none)

/-- Runs taken in order, each by `f`, passing over a cue that an earlier one GOed: its run is a new one, made within this
event (R93: a follow never expires within the event that begins it). -/
def takeRuns (f : Nat → State → State × Option Nat) (cues : List Nat) (s : State) : State :=
  (cues.foldl (fun (acc : State × List Nat) c =>
    if acc.2.contains c then acc
    else
      let r := f c acc.1
      (r.1, r.2.toList ++ acc.2)) (s, [])).1

/-- FOLLOW_EXPIRY: the follow of the cue's run reaches 0 (R94). -/
def execFollowExpiry (cue : Nat) (s : State) : Host.Outcome State Fault Refusal := .next (s.expireFollow cue).1

/-- PRE_WAIT_END: the pre-wait of the cue's run reaches 0 and its actions are dispatched (R89, R90); a run that is not in
PRE_WAIT has no pre-wait to end. -/
def execPreWaitEnd (cue : Nat) (s : State) : Host.Outcome State Fault Refusal :=
  match s.run? cue with
  | none => .next s
  | some r => .next (if r.state = .preWait then s.dispatch cue else s)

/-! ## Beats -/

/-- An edge on the beat input is counted when none has been, or 20 ms after the last counted one (R96). -/
def State.beatCounts (s : State) : Bool :=
  match s.runner.lastBeat with
  | none => true
  | some t => t + Config.beatSpacing ≤ s.timeBase

/-- One counted beat of a run: a COUNTING follow falls by 1 and expires at 0 (R96). -/
def State.beatRun (c : Nat) (s : State) : State × Option Nat :=
  match s.run? c with
  | none => (s, none)
  | some r =>
    if r.followState = .counting then
      if r.followRemaining ≤ 1 then s.expireFollow c
      else (s.onRun c fun r => { r with followRemaining := r.followRemaining - 1 }, none)
    else (s, none)

/-- BEAT: a rising edge on the beat input (R96). -/
def execBeat (s : State) : Host.Outcome State Fault Refusal :=
  if s.beatCounts then
    let counted := { s with runner := { s.runner with
      beatCounter := (s.runner.beatCounter + 1) % 65536, lastBeat := some s.timeBase } }
    .next (takeRuns (fun c s => s.beatRun c) (s.runner.runs.map (·.cue)) counted)
  else .next s

/-! ## STANDBY SET and PANIC -/

/-- Standby set to a value; a change adds the STANDBY notice to every lane (R72). -/
def State.setStandby (x : Option Nat) (s : State) : State :=
  let moved := { s with runner := { s.runner with standby := x } }
  if s.runner.standby = x then moved else moved.noticeAll .standby

/-- STANDBY SET (R75). -/
def execStandbySet (lane : Lane) (tag : Byte) (cue : Nat) (s : State) : Host.Outcome State Fault Refusal :=
  let i := Instr.standbySet lane tag cue
  fullOnly lane i s
    (if (s.store.cue? cue).isSome then
      (s.setStandby (some cue)).answer i .ok (cueBytes s.runner.standby ++ be 3 cue)
    else s.answer i .notFound [])

/-- All cue motion stopped: every run removed, every slot freed, every line IDLE (R57, R82, R98). -/
def State.stopMotion (s : State) : State :=
  let still := s.freezeFades.idleLines
  { still with runner := { still.runner with runs := [] } }

/-- PANIC (R98). -/
def execPanic (lane : Lane) (tag : Byte) (s : State) : Host.Outcome State Fault Refusal :=
  let n := s.runner.runs.length
  let t := ((s.stopMotion.report (.lane lane) none none (.panic n)).noticeAll .standby).noticeAll .run
  .next (t.answer (.panic lane tag) .ok (be 1 n ++ cueBytes s.runner.standby))

/-! ## Trigger line events -/

/-- PULSE_END (R100). -/
def execPulseEnd (line : Nat) (s : State) : Host.Outcome State Fault Refusal :=
  .next (s.setLine line (s.line line).pulseEnd)

/-- REPEAT_PHASE_END (R101). -/
def execRepeatPhaseEnd (line : Nat) (s : State) : Host.Outcome State Fault Refusal :=
  .next (s.setLine line (s.line line).phaseEnd)

/-! ## Reads -/

/-- A line in a TRIGGER STATUS reply: its state, the fields of that state, and whether it is driven active (R102). -/
def LineState.chars (x : LineState) : List Byte :=
  (match x with
   | .idle => be 1 1
   | .active => be 1 2
   | .pulse r => be 1 3 ++ be 3 r
   | .repeating on r n _ => be 1 4 ++ be 1 (onCode on) ++ be 3 r ++ be 1 n) ++ [flag x.driven]

/-- TRIGGER STATUS (R102). -/
def execTriggerStatus (lane : Lane) (tag : Byte) (s : State) : Host.Outcome State Fault Refusal :=
  .next (s.answer (.triggerStatus lane tag) .ok (s.runner.lines.toList.flatMap LineState.chars))

/-- A run in a RUN STATUS reply (R103). -/
def Run.chars (r : Run) : List Byte :=
  be 3 r.cue ++ be 1 r.origin.code ++ be 1 r.state.code ++ be 3 r.preWait ++ be 1 r.follow.kindCode
    ++ be 1 r.followState.code ++ be 3 r.followRemaining ++ be 1 r.slots ++ be 2 r.snapped

/-- The last-GO record in a RUN STATUS reply: absent, or its cue, origin and show time (R103, R180). -/
def lastGoBytes : Option LastGo → List Byte
  | none => flag false :: (be 3 0 ++ be 1 0 ++ be 4 0)
  | some g => flag true :: (be 3 g.cue ++ be 1 g.origin.code ++ be 4 g.showTime)

/-- The time since the last counted beat, saturating (R103). -/
def State.sinceBeat (s : State) : Option Nat := s.runner.lastBeat.map fun t => min Config.max16 (s.timeBase - t)

/-- RUN STATUS (R103). -/
def execRunStatus (lane : Lane) (tag : Byte) (first : Nat) (s : State) : Host.Outcome State Fault Refusal :=
  let i := Instr.runStatus lane tag first
  if 15 < first then .next (s.answer i .outOfRange [])
  else
    let rs := (s.runner.runs.drop first).take 8
    .next (s.answer i .ok
      (cueBytes s.runner.standby ++ lastGoBytes s.runner.lastGo ++ be 2 s.runner.beatCounter ++ optBytes 3 s.sinceBeat
        ++ be 1 s.runner.runs.length ++ be 1 rs.length ++ rs.flatMap Run.chars))

end Sys2Proof.Machine
end

