-- ==== Sys2Proof/Machine/Lanes.lean ====
section
/-! DEFINITION. What a control lane does of its own: the faults of its receive line (R174 to R177), the end of a reply (R178),
the lane reset (R182), and the requests that the lanes own, NOTICES (R183), LANE STATUS (R177) and IDENTITY (R187). -/

namespace Sys2Proof.Machine

/-! ## The receive line -/

/-- A lane counter raised by one, staying at 255 (R177). -/
def bump8 (n : Nat) : Nat := bump 255 n

/-- The lane receives characters: its line is not low after a character without a stop bit, nor in a break (R174, R182). -/
def LaneState.receives (x : LaneState) : Bool := x.line == .high

/-- An event of a lane's receiver, which a line that is low does not bring about. -/
def State.received (l : Lane) (f : LaneState → LaneState) (s : State) : State :=
  s.onLane l fun x => if x.receives then f x else x

/-- FRAMING_ERROR: a character with stop bit 0 is discarded, a frame in assembly is abandoned, and nothing more is assembled
until the line returns high (R174). -/
def execFramingError (lane : Lane) (s : State) : Host.Outcome State Fault Refusal :=
  .next (s.received lane fun x => { x with assembly := none, line := .low })

/-- A line that returns high: the framing counter rises unless the low was taken as a break (R174). -/
def LaneState.returnHigh (x : LaneState) : LaneState :=
  match x.line with
  | .high => x
  | .low => { x with line := .high, framing := bump8 x.framing }
  | .broken => { x with line := .high }

/-- LINE_RETURNED_HIGH (R174). -/
def execLineReturnedHigh (lane : Lane) (s : State) : Host.Outcome State Fault Refusal :=
  .next (s.onLane lane LaneState.returnHigh)

/-- What is in assembly after a truncation: the header character of a new frame, or nothing (R175). -/
def assemblyAfter : TruncatedCause → Option (List Byte)
  | .mark tag => some [tag]
  | .stray _ => none
  | .lengthOver _ => none

/-- FRAME_TRUNCATED (R175). -/
def execFrameTruncated (lane : Lane) (cause : TruncatedCause) (s : State) : Host.Outcome State Fault Refusal :=
  .next (s.received lane fun x => { x with truncated := bump8 x.truncated, assembly := assemblyAfter cause })

/-- FRAME_GAP (R175). -/
def execFrameGap (lane : Lane) (s : State) : Host.Outcome State Fault Refusal :=
  .next (s.received lane fun x => { x with truncated := bump8 x.truncated, assembly := none })

/-- CHECK_ERROR: a complete frame whose check differs is discarded with no reply, whatever it holds (R176). -/
def execCheckError (lane : Lane) (_frame : Frame) (_received : Check) (s : State) : Host.Outcome State Fault Refusal :=
  .next (s.received lane fun x => { x with check := bump8 x.check, assembly := none })

/-- The slot empties when the last character of its reply has been sent (R178). -/
def LaneState.sent (x : LaneState) : LaneState :=
  if x.slot.isSome && x.reply.isSome then { x with slot := none, reply := none } else x

/-- REPLY_SENT (R178). -/
def execReplySent (lane : Lane) (s : State) : Host.Outcome State Fault Refusal := .next (s.onLane lane LaneState.sent)

/-- The level of a lane's transmit line in the n-th bit time from the beginning of its reply: the reply's characters, each in its
11 bits, and high after them and where no reply is in progress (R174). -/
def LaneState.transmits (x : LaneState) (n : Nat) : Bool :=
  match x.reply with
  | none => true
  | some cs => (cs.flatMap Character.bits).getD n true

/-! ## Lane reset -/

/-- What a lane reset leaves of its lane (R182). -/
def LaneState.reset (x : LaneState) : LaneState :=
  { x with
    line := .broken, assembly := none, slot := none, reply := none, notices := {}, laneResets := bump8 x.laneResets }

/-- LANE_RESET: a break is taken once, however long the line stays low (R182); the lane's staging buffer becomes EMPTY (R172). -/
def execLaneReset (lane : Lane) (s : State) : Host.Outcome State Fault Refusal :=
  .next (if (s.lanes.get lane).line = .broken then s else (s.onLane lane LaneState.reset).setBuffer lane none)

/-! ## The lanes' own requests -/

/-- NOTICES (R183). -/
def execNotices (lane : Lane) (tag : Byte) (s : State) : Host.Outcome State Fault Refusal :=
  let kinds := (s.lanes.get lane).notices
  .next ((s.onLane lane fun x => { x with notices := {} }).answer (.notices lane tag) .ok [kinds.char])

/-- A lane in a LANE STATUS reply (R177). The notice set is the one character of flags that R183 gives for NOTICES (DESIGN CHOICE,
notes/assumptions/34.md). -/
def LaneState.chars (l : Lane) (x : LaneState) : List Byte :=
  be 1 (roleCode l) ++ be 1 x.framing ++ be 1 x.check ++ be 1 x.truncated ++ be 1 x.dropped ++ be 1 x.laneResets
    ++ [x.notices.char, flag x.attention]

/-- LANE STATUS (R177). -/
def execLaneStatus (lane : Lane) (tag : Byte) (named : Nat) (s : State) : Host.Outcome State Fault Refusal :=
  let i := Instr.laneStatus lane tag named
  match laneOfCode named with
  | some l => .next (s.answer i .ok ((s.lanes.get l).chars l))
  | none => .next (s.answer i .outOfRange [])

/-- IDENTITY (R187). -/
def execIdentity (lane : Lane) (tag : Byte) (s : State) : Host.Outcome State Fault Refusal :=
  .next (s.answer (.identity lane tag) .ok
    (be 2 Config.vendor ++ be 2 Config.part ++ be 2 Config.revision ++ be 1 (laneCode lane) ++ be 1 (roleCode lane)))

end Sys2Proof.Machine
end

