-- ==== Sys2Proof/Machine/LevelTable.lean ====
section
/-! DEFINITION. The desk level requests: LEVEL SET, TRIM NUDGE, TRIM SET, TRIM CLEAR and LEVEL READ (R10 to R18). -/

namespace Sys2Proof.Machine

/-- The reply to a level request: for a POINT target the point as it stands afterwards, otherwise the number of points
written (R10, R11). -/
def levelReply (i : Instr) (t : Target) (ps : List Nat) (clamped : Bool) (s : State) : State :=
  let counted := flag clamped :: be 2 ps.length
  if t.kind = 1 then
    let q := s.point t.number
    s.answer i .ok (counted ++ signed q.base ++ signed q.trim ++ signed q.effective ++ membershipBytes q.membership)
  else s.answer i .ok counted

/-- A level request over the points its target resolves to (R8, R10): `change` changes each point in order, as one write. -/
def levelRequest (i : Instr) (acceptsAll : Bool) (t : Target) (clamped : List Nat → State → Bool)
    (change : Nat → State → State) (s : State) : State :=
  match s.store.resolveRequest acceptsAll t with
  | .refused st => s.answer i st []
  | .points ps => levelReply i t ps (clamped ps s) (ps.foldl (fun s p => change p s) s)

/-- LEVEL SET of one point: the base is set and a point in a fade slot is grabbed out of it (R12, R52). -/
def State.levelSetPoint (level : Int) (p : Nat) (s : State) : State := (s.setBase p level).leave p

/-- LEVEL SET (R12). -/
def execLevelSet (lane : Lane) (tag : Byte) (target : Target) (level : Int) (s : State) :
    Host.Outcome State Fault Refusal :=
  let i := Instr.levelSet lane tag target level
  fullOnly lane i s
    (levelRequest i false target (fun _ _ => level != clampBase level) (State.levelSetPoint level) s)

/-- The delta of a TRIM NUDGE within its range (R14). -/
def clampDelta (d : Int) : Int := clamp (-1200) 1200 d

/-- TRIM NUDGE of one point (R14). -/
def State.nudgePoint (delta : Int) (p : Nat) (s : State) : State :=
  s.onPoint p fun q => { q with trim := clampTrim (q.trim + clampDelta delta) }

/-- A clamp of a TRIM NUDGE changed a value for some member (R14). -/
def nudgeClamped (delta : Int) (ps : List Nat) (s : State) : Bool :=
  delta != clampDelta delta ||
    ps.any fun p =>
      let sum := (s.point p).trim + clampDelta delta
      sum != clampTrim sum

/-- TRIM NUDGE (R14). -/
def execTrimNudge (lane : Lane) (tag : Byte) (target : Target) (delta : Int) (s : State) :
    Host.Outcome State Fault Refusal :=
  let i := Instr.trimNudge lane tag target delta
  fullOnly lane i s (levelRequest i false target (nudgeClamped delta) (State.nudgePoint delta) s)

/-- TRIM SET (R15). -/
def execTrimSet (lane : Lane) (tag : Byte) (target : Target) (value : Int) (s : State) :
    Host.Outcome State Fault Refusal :=
  let i := Instr.trimSet lane tag target value
  fullOnly lane i s
    (levelRequest i false target (fun _ _ => value != clampTrim value) (fun p s => s.setTrim p value) s)

/-- TRIM CLEAR, which also accepts ALL and never sets the clamped flag (R16). -/
def execTrimClear (lane : Lane) (tag : Byte) (target : Target) (s : State) : Host.Outcome State Fault Refusal :=
  let i := Instr.trimClear lane tag target
  fullOnly lane i s (levelRequest i true target (fun _ _ => false) (fun p s => s.setTrim p 0) s)

/-- The entry of one point in a LEVEL READ reply (R18). -/
def pointEntry (p : Nat) (q : Point) : List Byte :=
  be 2 p ++ signed q.base ++ signed q.trim ++ signed q.effective ++ be 3 (gain q.effective) ++ membershipBytes q.membership

/-- LEVEL READ (R18). -/
def execLevelRead (lane : Lane) (tag : Byte) (first count : Nat) (s : State) : Host.Outcome State Fault Refusal :=
  let i := Instr.levelRead lane tag first count
  if Config.points ≤ first then .next (s.answer i .notFound [])
  else if count = 0 || 16 < count then .next (s.answer i .outOfRange [])
  else
    let ps := runOf Config.points first count
    .next (s.answer i .ok (be 1 ps.length ++ ps.flatMap fun p => pointEntry p (s.point p)))

end Sys2Proof.Machine
end

