-- ==== Sys2Proof/Machine/Relay.lean ====
section
/-! DEFINITION. The zone router and the call queue: routes (R106), duck ramps (R109, R110), calls opened, granted, pre-empted
and ended (R113 to R119), what a commit of a zone setup does to a duck (R111), and the reads (R124, R125). -/

namespace Sys2Proof.Machine

/-! ## Ramps -/

/-- A ramp begins from the zone's current duck and replaces any in progress; a ramp time of 0 completes it at once (R109). -/
def Zone.beginRamp (kind : RampKind) (target : Int) (time : Nat) (z : Zone) : Zone :=
  if time = 0 then { z with duck := target, ramp := none }
  else { z with ramp := some ⟨kind, z.duck, target, time, 0⟩ }

/-- A ramp that has reached its ramp time: the duck is the target and the ramp NONE (R109). -/
def Zone.endRamp (z : Zone) : Zone :=
  match z.ramp with
  | none => z
  | some r => { z with duck := r.target, ramp := none }

/-- One millisecond of a zone's ramp (R109). -/
def Zone.tick (z : Zone) : Zone :=
  match z.ramp with
  | none => z
  | some r =>
    if r.time ≤ r.elapsed + 1 then z.endRamp
    else { z with duck := rampDuck r.start r.target (r.elapsed + 1) r.time, ramp := some { r with elapsed := r.elapsed + 1 } }

/-- One millisecond of every ramp in progress (R109). -/
def State.advanceRamps (s : State) : State := { s with zones := s.zones.mapIdx fun _ z => z.tick }

/-- DUCK_RAMP_ADVANCE (R109). -/
def execDuckRampAdvance (s : State) : Host.Outcome State Fault Refusal := .next s.advanceRamps

/-- DUCK_RAMP_END: the elapsed time of the zone's ramp reaches its ramp time (R109). -/
def execDuckRampEnd (zone : Nat) (s : State) : Host.Outcome State Fault Refusal := .next (s.onZone zone Zone.endRamp)

/-- A zone as the live call passes from one zone set to another in one event: a zone of the new set becomes targeted and
attacks from the duck it holds, one of the old set alone is untargeted and releases (R110, R115 to R117). -/
def State.retargetZone (old new : ZoneSet) (s : State) (k : Nat) (z : Zone) : Zone :=
  if new.getLsbD k then
    { z with targeted := true }.beginRamp .attack (s.zoneSetup k).duckDepth s.store.showSetup.duckAttack
  else if old.getLsbD k then
    { z with targeted := false }.beginRamp .release 0 s.store.showSetup.duckRelease
  else z

/-- Every zone as the live call passes from one zone set to another. -/
def State.retarget (old new : ZoneSet) (s : State) : State :=
  { s with zones := s.zones.mapIdx (s.retargetZone old new) }

/-- A zone whose setup was committed with a new duck depth (R111); `s` holds the new setups. -/
def State.depthChanged (depth : Int) (s : State) (z : Zone) : Zone :=
  let limited := if depth < z.duck then { z with duck := depth } else z
  let show_ := s.store.showSetup
  match z.ramp with
  | some r =>
    match r.kind with
    | .attack => limited.beginRamp .attack depth show_.duckAttack
    | .release => if depth < z.duck then limited.beginRamp .release 0 show_.duckRelease else limited
  | none =>
    if z.targeted && limited.duck < depth then limited.beginRamp .attack depth show_.duckAttack else limited

/-! ## The call queue -/

/-- The rank of a class in the grant order (R114). -/
def CallClass.rank : CallClass → Nat
  | .general => 0
  | .artist => 1
  | .showStop => 2

/-- The waiting call granted next: the highest class, and within it the earliest arrival (R114). -/
def bestWaiting (cs : List Call) : Option Call :=
  cs.foldl (fun best c =>
    match best with
    | none => some c
    | some b => if b.cls.rank < c.cls.rank then some c else some b) none

/-- A call becomes live, with `old` the zone set of the call whose end led to it: its limit set, its zones targeted, CALL_LIVE
reported, the CALL notice added (R115). -/
def State.goLive (old : ZoneSet) (c : Call) (s : State) : State :=
  let live := { s with calls := { s.calls with live := some ⟨c, s.store.showSetup.callLimit * 1000, 0⟩ } }
  let moved := live.retarget old c.zones
  (moved.report (.lane c.lane) none (lowestZone c.zones)
    (.callLive c.cls (zoneList c.zones).length c.arrival)).noticeAll .call

/-- The live call ends, and `next`, if any, becomes live in the same event: CALL_END before CALL_LIVE (R116, R117). -/
def State.endLive (reason : EndReason) (next : Option Call) (s : State) : State :=
  match s.calls.live with
  | none => s
  | some x =>
    let gone := { s with calls := { s.calls with live := none } }
    let logged := gone.report (.lane x.call.lane) none (lowestZone x.call.zones) (.callEnd reason x.call.arrival)
    match next with
    | none => (logged.retarget x.call.zones 0).noticeAll .call
    | some c => (logged.goLive x.call.zones c).noticeAll .call

/-- The live call ends and the first waiting call in grant order leaves the list and becomes live (R114, R117). -/
def State.endAndGrant (reason : EndReason) (s : State) : State :=
  match bestWaiting s.calls.waiting with
  | none => s.endLive reason none
  | some c => { s with calls := { s.calls with waiting := s.calls.waiting.erase c } }.endLive reason (some c)

/-- The lane has a call live or waiting (R113). -/
def Calls.holds (q : Calls) (l : Lane) : Bool :=
  (match q.live with | some x => x.call.lane == l | none => false) || q.waiting.any fun c => c.lane == l

/-- The arrival counter after an accepted call, wrapping from 65,535 to 1 (R112). -/
def nextArrival (n : Nat) : Nat := if n = 65535 then 1 else n + 1

/-- The number of waiting calls the grant order puts ahead of a new call of this class (R113, R114). -/
def aheadOf (cls : CallClass) (waiting : List Call) : Nat := (waiting.filter fun c => cls.rank ≤ c.cls.rank).length

/-- An accepted call becomes live at once, pre-empts the live call, or joins the tail of the waiting list (R113, R116). -/
def State.placeCall (c : Call) (s : State) : State :=
  let counted := { s with calls := { s.calls with arrival := nextArrival s.calls.arrival } }
  match s.calls.live with
  | none => counted.goLive 0 c
  | some x =>
    if c.cls == .showStop && x.call.cls != .showStop then counted.endLive .preempted (some c)
    else
      State.noticeAll .call { counted with calls := { counted.calls with waiting := counted.calls.waiting ++ [c] } }

/-- A new call of this class would wait (R113). -/
def Calls.wouldWait (q : Calls) (cls : CallClass) : Bool :=
  match q.live with
  | none => false
  | some x => !(cls == .showStop && x.call.cls != .showStop)

/-- CALL OPEN: outcome LIVE is 1, WAITING is 2 (R113). -/
def execCallOpen (lane : Lane) (tag : Byte) (cls : Nat) (zones : ZoneSet) (level : Int) (s : State) :
    Host.Outcome State Fault Refusal :=
  let i := Instr.callOpen lane tag cls zones level
  match classOfCode cls with
  | none => .next (s.answer i .malformed [])
  | some k =>
    if zones = 0 then .next (s.answer i .outOfRange [])
    else if s.calls.holds lane then .next (s.answer i .busy [])
    else
      let waits := s.calls.wouldWait k
      let c : Call := ⟨lane, s.calls.arrival, k, zones, clampBase level⟩
      .next ((s.placeCall c).answer i .ok
        (be 2 s.calls.arrival ++ be 1 (if waits then 2 else 1)
          ++ optBytes 1 (if waits then some (aheadOf k s.calls.waiting) else none) ++ [flag (level != clampBase level)]))

/-- CALL CLOSE: outcome ENDED is 1, WITHDRAWN is 2 (R118). -/
def execCallClose (lane : Lane) (tag : Byte) (s : State) : Host.Outcome State Fault Refusal :=
  let i := Instr.callClose lane tag
  match s.calls.live.filter fun x => x.call.lane == lane with
  | some x => .next ((s.endAndGrant .closed).answer i .ok (be 1 1 ++ be 2 x.call.arrival))
  | none =>
    match s.calls.waiting.find? fun c => c.lane == lane with
    | some c =>
      let gone := State.noticeAll .call { s with calls := { s.calls with waiting := s.calls.waiting.erase c } }
      .next (gone.answer i .ok (be 1 2 ++ be 2 c.arrival))
    | none => .next (s.answer i .notLive [])

/-- CALL_TIMEOUT: the live call's limit remaining reaches 0 (R119); with no live call no limit runs. -/
def execCallTimeout (s : State) : Host.Outcome State Fault Refusal :=
  .next (match s.calls.live with | none => s | some _ => s.endAndGrant .timeout)

/-! ## Routes -/

/-- A mix or NONE as a frame carries it: 0–23, or 255 for NONE (R106, R180). -/
def routeOfCode (m : Nat) : Option (Option Nat) :=
  if m < Config.mixes then some (some m) else if m = 255 then some none else none

/-- ZONE ROUTE (R106). -/
def execZoneRoute (lane : Lane) (tag : Byte) (zone mix : Nat) (s : State) : Host.Outcome State Fault Refusal :=
  let i := Instr.zoneRoute lane tag zone mix
  fullOnly lane i s
    (if Config.zones ≤ zone then s.answer i .outOfRange []
    else
      match routeOfCode mix with
      | none => s.answer i .outOfRange []
      | some m => (s.setRoute zone m).answer i .ok (be 1 zone ++ mixBytes (s.zone zone).route ++ mixBytes m))

/-! ## Reads -/

/-- The zone level's effective level (R105). -/
def State.zoneLevel (s : State) (z : Nat) : Int := (s.point (1024 + z)).effective

/-- A ramp in a ZONE STATUS reply: NONE, ATTACK or RELEASE with its target, ramp time and elapsed time (R125). -/
def rampBytes (r : Option Ramp) : List Byte :=
  be 1 (rampCode r) ++
    (match r with
     | none => signed 0 ++ be 3 0 ++ be 3 0
     | some r => signed r.target ++ be 3 r.time ++ be 3 r.elapsed)

/-- The entry of one zone in a ZONE STATUS reply (R125). -/
def State.zoneEntry (s : State) (k : Nat) : List Byte :=
  let z := s.zone k
  mixBytes z.route ++ signed (s.zoneLevel k) ++ signed z.duck ++ rampBytes z.ramp ++ [flag z.targeted]

/-- ZONE STATUS (R125). -/
def execZoneStatus (lane : Lane) (tag : Byte) (first count : Nat) (s : State) : Host.Outcome State Fault Refusal :=
  let i := Instr.zoneStatus lane tag first count
  if Config.zones ≤ first then .next (s.answer i .notFound [])
  else if count = 0 || 16 < count then .next (s.answer i .outOfRange [])
  else
    let ks := runOf Config.zones first count
    .next (s.answer i .ok (be 1 ks.length ++ ks.flatMap s.zoneEntry))

/-- A call in a CALL STATUS reply (R124). -/
def Call.chars (c : Call) : List Byte :=
  be 1 (laneCode c.lane) ++ be 2 c.arrival ++ be 1 c.cls.code ++ zoneSetBytes c.zones ++ signed c.level

/-- The waiting calls in grant order: by class, within a class by arrival (R114, R124). -/
def grantOrder (cs : List Call) : List Call :=
  (cs.filter fun c => c.cls == .showStop) ++ (cs.filter fun c => c.cls == .artist)
    ++ cs.filter fun c => c.cls == .general

/-- The live call in a CALL STATUS reply, with its limit in ms and its time live in whole seconds (R124). -/
def liveBytes : Option LiveCall → List Byte
  | none => flag false :: List.replicate 15 0
  | some x => flag true :: (x.call.chars ++ be 3 x.limit ++ be 2 (min Config.max16 (x.timeLive / 1000)))

/-- CALL STATUS (R124). -/
def execCallStatus (lane : Lane) (tag : Byte) (s : State) : Host.Outcome State Fault Refusal :=
  .next (s.answer (.callStatus lane tag) .ok
    (liveBytes s.calls.live ++ be 1 s.calls.waiting.length ++ (grantOrder s.calls.waiting).flatMap Call.chars))

end Sys2Proof.Machine
end

