-- ==== Sys2Proof/Machine/RelayWatch.lean ====
section
/-! DEFINITION. The relay watch: measuring a frame (R127), the start of a window (R136), its end (R129 to R134), ALARMS ACK
(R135) and ALARM POLL (R138). -/

namespace Sys2Proof.Machine

/-- The audio clock is faulted while its state is ABSENT or RECOVERING (2.5). -/
def Audio.faulted (c : Audio) : Bool := c.clock != .good

/-- A change of an alarm: reported, and the ALARM notice added to every lane (R134). -/
def State.alarmEvent (lane : LogLane) (z : Nat) (d : Detail) (s : State) : State :=
  (s.report lane none (some z) d).noticeAll .alarm

/-- An alarm change that may not arise. -/
def State.alarmEventIf (b : Bool) (lane : LogLane) (z : Nat) (d : Detail) (s : State) : State :=
  if b then s.alarmEvent lane z d else s

/-! ## The start of a window -/

/-- The watch's copy of a zone's setup record (R126). -/
def ZoneSetup.watch (z : ZoneSetup) : WatchSetup := ⟨z.watchEnable, z.threshold, z.hysteresis, z.hold⟩

/-- A zone at the start of a window: the new copy, and the alarms of a zone just disabled cleared, SILENT first (R136). -/
def State.startWindowZone (z : Nat) (s : State) : State :=
  let w := s.watchZone z
  let new := (s.zoneSetup z).watch
  if w.setup.enable && new.enable then s.onWatchZone z fun w => { w with setup := new }
  else
    let fresh := s.onWatchZone z fun _ => { setup := new }
    if w.setup.enable then
      (fresh.alarmEventIf w.silentAlarm .engine z (.alarmClear false .disabled)).alarmEventIf w.overAlarm .engine z
        (.alarmClear true .disabled)
    else fresh

/-- The start of a window (R136). R136 orders the clears of one zone; that the zones are taken in ascending order, as R134 has it
for the end of a window, is the model's (DESIGN CHOICE, notes/assumptions/33.md). -/
def State.startWindow (s : State) : State := (List.range Config.zones).foldl (fun s z => s.startWindowZone z) s

/-! ## Measuring -/

/-- A zone's record after one frame: the value that leaves on its slot, whether the frame was saturated, and the zone's state
at the computation (R127). -/
def WatchZone.measure (value : Int) (saturated unrouted ducked : Bool) (w : WatchZone) : WatchZone :=
  if w.setup.enable then
    { w with
      peak := max w.peak value.natAbs
      saturated := if saturated then w.saturated + 1 else w.saturated
      seenUnrouted := w.seenUnrouted || unrouted
      seenDucked := w.seenDucked || ducked }
  else w

/-! ## The end of a window -/

/-- The class of a zone's ended window (R129). -/
def WatchZone.windowClass (w : WatchZone) (faultSeen : Bool) : WindowClass :=
  if w.seenUnrouted then .cleared else if w.seenDucked || faultSeen then .held else .counted

/-- The quiet count after the window (R130 to R132). -/
def WatchZone.nextQuiet (w : WatchZone) (cls : WindowClass) (level : Int) : Nat :=
  match cls with
  | .cleared => 0
  | .held => 0
  | .counted => if level < w.setup.threshold then bump Config.maxQuiet w.quiet else 0

/-- SILENT after the window (R130 to R132). -/
def WatchZone.nextSilent (w : WatchZone) (cls : WindowClass) (level : Int) : Bool :=
  match cls with
  | .cleared => false
  | .held => w.silentAlarm
  | .counted =>
    if level < w.setup.threshold then w.silentAlarm || decide (w.setup.hold ≤ w.nextQuiet .counted level)
    else if w.setup.threshold + w.setup.hysteresis ≤ level then false
    else w.silentAlarm

/-- An enabled zone's record after the window: findings made, measuring fields back to 0 and clear (R129, R133). -/
def WatchZone.ended (w : WatchZone) (faultSeen : Bool) : WatchZone :=
  let cls := w.windowClass faultSeen
  let level := peakLevel w.peak
  { setup := w.setup
    silentAlarm := w.nextSilent cls level
    overAlarm := w.overAlarm || decide (0 < w.saturated)
    quiet := w.nextQuiet cls level
    last := some ⟨cls, level⟩ }

/-- The event of a SILENT change, from the window's class (R130, R132, R134). -/
def silentDetail (w : WatchZone) (faultSeen nowSilent : Bool) : Detail :=
  if nowSilent then .alarmSetSilent (peakLevel w.peak) w.setup.hold
  else
    match w.windowClass faultSeen with
    | .cleared => .alarmClear false .deliberate
    | .held => .alarmClear false .signal
    | .counted => .alarmClear false .signal

/-- A zone at the end of a window: its record, then the SILENT change and the OVER change reported (R129, R134). -/
def State.endWindowZone (z : Nat) (s : State) : State :=
  let w := s.watchZone z
  if w.setup.enable then
    let e := w.ended s.watch.faultSeen
    let found := s.onWatchZone z fun _ => e
    (found.alarmEventIf (w.silentAlarm != e.silentAlarm) .engine z
        (silentDetail w s.watch.faultSeen e.silentAlarm)).alarmEventIf (!w.overAlarm && e.overAlarm) .engine z
      (.alarmSetOver w.saturated)
  else s

/-- The end of a window: every enabled zone in ascending order, the fault-seen flag as the clock now stands, and the frame
count back to 0 (R127, R129). -/
def State.endWindow (s : State) : State :=
  let found := (List.range Config.zones).foldl (fun s z => s.endWindowZone z) s
  { found with watch := { found.watch with frames := 0, faultSeen := found.audio.faulted } }

/-- A window ends when its 4,800th frame has been computed, and never earlier (R127). -/
def State.endFullWindow (s : State) : State := if Config.windowFrames ≤ s.watch.frames then s.endWindow else s

/-- WINDOW_END (R129): the end of a window that holds its 4,800 frames. A window that holds fewer cannot be cut short (R127). -/
def execWindowEnd (s : State) : Host.Outcome State Fault Refusal := .next s.endFullWindow

/-! ## ALARMS ACK and ALARM POLL -/

/-- One named zone acknowledged: a set OVER is cleared and reported (R135). -/
def State.ackZone (lane : Lane) (z : Nat) (s : State) : State :=
  if (s.watchZone z).overAlarm then
    (s.onWatchZone z fun w => { w with overAlarm := false }).alarmEvent (.lane lane) z (.alarmClear true .ack)
  else s

/-- ALARMS ACK (R135). -/
def execAlarmsAck (lane : Lane) (tag : Byte) (zones : ZoneSet) (s : State) : Host.Outcome State Fault Refusal :=
  let i := Instr.alarmsAck lane tag zones
  fullOnly lane i s
    (if zones = 0 then s.answer i .outOfRange []
    else
      let cleared := (zoneList zones).filter fun z => (s.watchZone z).overAlarm
      (cleared.foldl (fun s z => s.ackZone lane z) s).answer i .ok (be 1 cleared.length ++ cleared.flatMap (be 1)))

/-- The zones that hold an alarm, in ascending order (R138). -/
def State.alarmZones (s : State) : List Nat :=
  (List.range Config.zones).filter fun z => (s.watchZone z).silentAlarm || (s.watchZone z).overAlarm

/-- The entry of one zone in an ALARM POLL reply (R138). -/
def alarmEntry (z : Nat) (w : WatchZone) : List Byte :=
  be 1 z ++ [flag w.silentAlarm, flag w.overAlarm] ++ be 2 w.quiet ++ be 2 w.setup.hold
    ++ be 1 ((w.last.map fun x => x.cls.code).getD 0) ++ signed ((w.last.map (·.peakLevel)).getD 0)

/-- ALARM POLL (R138). -/
def execAlarmPoll (lane : Lane) (tag : Byte) (first : Nat) (s : State) : Host.Outcome State Fault Refusal :=
  let i := Instr.alarmPoll lane tag first
  if Config.zones ≤ first then .next (s.answer i .outOfRange [])
  else
    let listed := (s.alarmZones.filter fun z => decide (first ≤ z)).take 24
    .next (s.answer i .ok
      (be 1 s.audio.clock.code ++ [flag s.audio.faulted] ++ be 1 s.alarmZones.length ++ be 1 listed.length
        ++ listed.flatMap fun z => alarmEntry z (s.watchZone z)))

end Sys2Proof.Machine
end

