-- ==== Sys2Proof/Machine/MixCore.lean ====
section
/-! DEFINITION. The mix core and the audio path of one frame: source scaling, mix sums and masters (R28 to R30), zone sums
(R108), the delay of four frames (R23), the word clock's states (R34 to R36), the input map (R24 to R27), the output masks
(R31, R32) and AUDIO STATUS (R37). -/

namespace Sys2Proof.Machine

/-! ## One frame -/

/-- The sample of a physical input: 0–23 on port I0, 24–39 on port I1 (R21). -/
def physicalInput (i0 i1 : List Int) (n : Nat) : Int := if n < 24 then i0.getD n 0 else i1.getD (n - 24) 0

/-- The sample of the call input, slot 16 of port I1 (R21). -/
def callInput (i1 : List Int) : Int := i1.getD 16 0

/-- The scaled source of a logical source (R28). -/
def State.scaledSource (s : State) (i0 i1 : List Int) (k : Nat) : Int :=
  scale (physicalInput i0 i1 (s.inputMap.getD k 0)) (s.gainOf k)

/-- The 40 scaled sources of a frame, formed once (R28). -/
def State.scaledSources (s : State) (i0 i1 : List Int) : List Int :=
  (List.range Config.sources).map (s.scaledSource i0 i1)

/-- The point of the send of source `k` into mix `m` (R1). -/
def sendPoint (m k : Nat) : Nat := 40 + 40 * m + k

/-- The accumulator of a mix: the exact sum of its 40 contributions (R29). -/
def State.accumulator (s : State) (sources : List Int) (m : Nat) : Int :=
  (mapFrom (fun k x => scale x (s.gainOf (sendPoint m k))) 0 sources).sum

/-- The mix signal (R30). -/
def State.mixSignal (s : State) (sources : List Int) (m : Nat) : Int :=
  sat24 (scale (s.accumulator sources m) (s.gainOf (1000 + m)))

/-- The 24 mix signals of a frame. -/
def State.mixSignals (s : State) (i0 i1 : List Int) : List Int :=
  (List.range Config.mixes).map (s.mixSignal (s.scaledSources i0 i1))

/-- The relay term of a zone (R108). -/
def State.relayTerm (s : State) (mixes : List Int) (z : Nat) : Int :=
  match (s.zone z).route with
  | none => 0
  | some m => scale (mixes.getD m 0) (gain (duckedLevel (s.zoneLevel z) (s.zone z).duck))

/-- The call term of a zone (R108). -/
def State.callTerm (s : State) (call : Int) (z : Nat) : Int :=
  if (s.zone z).targeted then
    match s.calls.live with
    | some x => scale call (gain x.call.level)
    | none => 0
  else 0

/-- The sum of a zone before it is limited (R108). -/
def State.zoneSum (s : State) (mixes : List Int) (call : Int) (z : Nat) : Int := s.relayTerm mixes z + s.callTerm call z

/-- The 32 zone sums of a frame. -/
def State.zoneSums (s : State) (mixes : List Int) (call : Int) : List Int :=
  (List.range Config.zones).map (s.zoneSum mixes call)

/-- What port O0 carries of the mix signals: 0 for a masked mix (R31). -/
def State.maskedMixes (s : State) (mixes : List Int) : List Int :=
  mapFrom (fun m x => if s.masks.getD m false then 0 else x) 0 mixes

/-- The frame computed from the samples that arrive (R23). -/
def State.computeFrame (s : State) (i0 i1 : List Int) : OutFrame :=
  let mixes := s.mixSignals i0 i1
  ⟨s.maskedMixes mixes, (s.zoneSums mixes (callInput i1)).map sat24⟩

/-- A frame of 0 on every slot (R35). -/
def silentFrame : OutFrame := ⟨List.replicate Config.mixes 0, List.replicate Config.zones 0⟩

/-- A computed frame enters the delay of four frames, and the frame computed four frames earlier is sent: as computed in GOOD,
0 on every slot otherwise (R23, R35). -/
def Audio.send (f : OutFrame) (c : Audio) : Audio :=
  let all := c.pipeline ++ [f]
  let due := if Config.latency < all.length then all.head? else none
  { c with
    pipeline := all.drop (all.length - Config.latency)
    sent := some (if c.faulted then silentFrame else due.getD silentFrame) }

/-- The watch measures the frame of every zone, from the zone sums; a frame sent as 0 in RECOVERING is handed over as 0 and not
saturated (R108, R127). -/
def State.measureFrame (s : State) (sums : List Int) : State :=
  let quiet := s.audio.faulted
  let measured := s.watch.zones.mapIdx fun z w =>
    let sum := sums.getD z 0
    let zone := s.zone z
    w.measure (if quiet then 0 else sat24 sum) (!quiet && sat24 sum != sum)
      (zone.route.isNone || decide (s.zoneLevel z ≤ Config.off)) (decide (0 < zone.duck) || zone.targeted)
  { s with watch := { s.watch with zones := measured, frames := s.watch.frames + 1 } }

/-! ## The audio clock -/

/-- The clearing of a fault: GOOD, AUDIO_RESTORED with the length of the fault, the ALARM notice (R35). -/
def State.restoreClock (s : State) : State :=
  let good := { s with audio := { s.audio with clock := .good, goodPeriods := 0, faultMs := 0 } }
  (good.report .engine none none (.audioRestored s.audio.faultMs)).noticeAll .alarm

/-- A good period in RECOVERING is counted, and the 48th clears the fault (R35). -/
def State.countGoodPeriod (s : State) : State :=
  if s.audio.clock = .recovering then
    if Config.goodPeriods ≤ s.audio.goodPeriods + 1 then s.restoreClock
    else { s with audio := { s.audio with goodPeriods := s.audio.goodPeriods + 1 } }
  else s

/-- A frame computed, sent, measured, and its period counted (R23, R127, R35). -/
def State.audioFrame (i0 i1 : List Int) (s : State) : State :=
  let begun := if s.watch.frames = 0 then s.startWindow else s
  let sums := begun.zoneSums (begun.mixSignals i0 i1) (callInput i1)
  let sent := { begun with audio := begun.audio.send (begun.computeFrame i0 i1) }
  ((sent.measureFrame sums).endFullWindow).countGoodPeriod

/-- AUDIO_FRAME: a word clock period (R23); no frame is computed while the clock is ABSENT (R34). -/
def execAudioFrame (i0 i1 : List Int) (s : State) : Host.Outcome State Fault Refusal :=
  .next (match s.audio.clock with
    | .absent => s
    | .good => s.audioFrame i0 i1
    | .recovering => s.audioFrame i0 i1)

/-- The clock is lost: ABSENT, frames not yet sent abandoned, none being sent (R34). -/
def Audio.lose (c : Audio) : Audio := { c with clock := .absent, goodPeriods := 0, pipeline := [], sent := none }

/-- The onset of a fault from GOOD: counted, reported, noticed, and the watch told (R34, R137). -/
def State.faultOnset (s : State) : State :=
  let n := bump Config.max16 s.audio.faultCount
  let lost := { s with
    audio := { s.audio.lose with faultCount := n, faultMs := 0 }
    watch := { s.watch with faultSeen := true } }
  (lost.report .engine none none (.audioFault n)).noticeAll .alarm

/-- CLOCK_LOSS (R34). -/
def execClockLoss (s : State) : Host.Outcome State Fault Refusal :=
  .next (match s.audio.clock with
    | .good => s.faultOnset
    | .recovering => { s with audio := s.audio.lose }
    | .absent => s)

/-- CLOCK_RETURN: the first edge in ABSENT (R35). -/
def execClockReturn (s : State) : Host.Outcome State Fault Refusal :=
  .next (match s.audio.clock with
    | .absent => { s with audio := { s.audio with clock := .recovering, goodPeriods := 0 } }
    | .good => s
    | .recovering => s)

/-- AUDIO_RESTORED: the 48th consecutive good period has ended in RECOVERING (R35). -/
def execAudioRestored (s : State) : Host.Outcome State Fault Refusal :=
  .next (match s.audio.clock with
    | .recovering => s.restoreClock
    | .good => s
    | .absent => s)

/-- One millisecond of a fault in progress (R37). -/
def Audio.tick (c : Audio) : Audio := if c.faulted then { c with faultMs := bump Config.max16 c.faultMs } else c

/-! ## The input map -/

/-- Two entries of the input map exchanged (R25). -/
def State.swapInputs (x y : Nat) (s : State) : State :=
  let ix := s.inputMap.getD x 0
  let iy := s.inputMap.getD y 0
  { s with inputMap := (s.inputMap.update x fun _ => iy).update y fun _ => ix }

/-- INPUT SWAP (R25). A source and a physical input are one character each (DESIGN CHOICE, notes/assumptions/32.md). -/
def execInputSwap (lane : Lane) (tag : Byte) (first second : Nat) (s : State) : Host.Outcome State Fault Refusal :=
  let i := Instr.inputSwap lane tag first second
  fullOnly lane i s
    (if Config.sources ≤ first || Config.sources ≤ second then s.answer i .outOfRange []
    else
      let swapped := s.swapInputs first second
      let ix := swapped.inputMap.getD first 0
      let iy := swapped.inputMap.getD second 0
      let logged :=
        if first = second then s else swapped.report (.lane lane) none none (.inputSwap first ix second iy)
      logged.answer i .ok (be 1 first ++ be 1 ix ++ be 1 second ++ be 1 iy))

/-- The sources whose entry differs from the identity, each with the input it reads (R26, R37). -/
def State.changedInputs (s : State) : List (Nat × Nat) :=
  (mapFrom (fun k n => (k, n)) 0 s.inputMap.toList).filter fun x => x.1 != x.2

/-- INPUT RESTORE (R26). -/
def execInputRestore (lane : Lane) (tag : Byte) (s : State) : Host.Outcome State Fault Refusal :=
  let i := Instr.inputRestore lane tag
  let n := s.changedInputs.length
  let restored := { s with inputMap := .tabulate _ id }
  fullOnly lane i s
    ((if n = 0 then s else restored.report (.lane lane) none none (.inputRestore n)).answer i .ok (be 1 n))

/-- INPUT MAP READ (R27); a physical input is one character (DESIGN CHOICE, notes/assumptions/32.md). -/
def execInputMapRead (lane : Lane) (tag : Byte) (s : State) : Host.Outcome State Fault Refusal :=
  .next (s.answer (.inputMapRead lane tag) .ok (s.inputMap.toList.flatMap (be 1)))

/-! ## Masks and AUDIO STATUS -/

/-- MIX MASK (R32). -/
def execMixMask (lane : Lane) (tag : Byte) (mix state : Nat) (s : State) : Host.Outcome State Fault Refusal :=
  let i := Instr.mixMask lane tag mix state
  fullOnly lane i s
    (if Config.mixes ≤ mix then s.answer i .outOfRange []
    else
      match onOfCode state with
      | none => s.answer i .malformed []
      | some on =>
        (s.setMask mix on).answer i .ok (be 1 mix ++ be 1 (onCode (s.masks.getD mix false)) ++ be 1 (onCode on)))

/-- The mixes whose mask flag is ON, in ascending order (R37). -/
def State.maskedList (s : State) : List Nat := (List.range Config.mixes).filter fun m => s.masks.getD m false

/-- AUDIO STATUS (R37). The fault time is a time in ms (R180); a source and a physical input are one character each (DESIGN
CHOICE, notes/assumptions/32.md). -/
def execAudioStatus (lane : Lane) (tag : Byte) (s : State) : Host.Outcome State Fault Refusal :=
  .next (s.answer (.audioStatus lane tag) .ok
    (be 1 s.audio.clock.code ++ be 1 s.audio.goodPeriods ++ be 2 s.audio.faultCount ++ be 3 s.audio.faultMs
      ++ be 1 s.maskedList.length ++ s.maskedList.flatMap (be 1)
      ++ be 1 s.changedInputs.length ++ s.changedInputs.flatMap fun x => be 1 x.1 ++ be 1 x.2))

end Sys2Proof.Machine
end

