-- ==== Sys2Proof/Machine/Resets.lean ====
section
/-! DEFINITION. Power-on and the reset pin (R184), the engine reset (R185) and the reset cause record's requests (R186). -/

namespace Sys2Proof.Machine

/-! ## Power-on and the reset pin -/

/-- POWER_ON: every block in its power-on state, with the one cause POWER (R184). -/
def execPowerOn (s : State) : Host.Outcome State Fault Refusal := .next { State.reset with pending := s.pending }

/-- RESET_PIN: every block in its power-on state, with the one cause PIN (R184). -/
def execResetPin (s : State) : Host.Outcome State Fault Refusal :=
  .next { State.reset with causes := { pin := true }, pending := s.pending }

/-! ## The engine reset -/

/-- What an engine reset reports: the runs, slots and waiting calls it ends and the live call's arrival number (R185). -/
def State.resetDetail (s : State) : Detail :=
  .engineReset s.runner.runs.length s.usedSlots.length s.calls.waiting.length (s.calls.live.map fun x => x.call.arrival)

/-- The call queue and the zone router after an engine reset: no call, no duck, no ramp, routes kept (R123). -/
def State.endCalls (s : State) : State :=
  { s with
    calls := { s.calls with live := none, waiting := [] }
    zones := s.zones.mapIdx fun _ z => { z with duck := 0, ramp := none, targeted := false } }

/-- Every quiet count 0 (R137). -/
def State.clearQuiet (s : State) : State :=
  { s with watch := { s.watch with zones := s.watch.zones.mapIdx fun _ w => { w with quiet := 0 } } }

/-- The reset cause record after an engine reset from a lane (R186). -/
def Causes.engineReset (l : Lane) (c : Causes) : Causes :=
  { c with engine := true, lane := some l, count := bump Config.max16 c.count }

/-- The engine reset: reported as the engine stood, then each block as its own rule gives, as one event (R185). -/
def State.engineReset (l : Lane) (s : State) : State :=
  let still := ((s.report (.lane l) none none s.resetDetail).stopMotion.endCalls).clearQuiet
  { still with
    staging := {}
    lanes := still.lanes.map fun x => { x with notices := { reset := true } }
    causes := s.causes.engineReset l }

/-- ENGINE RESET (R185). -/
def execEngineReset (lane : Lane) (tag : Byte) (s : State) : Host.Outcome State Fault Refusal :=
  let i := Instr.engineReset lane tag
  fullOnly lane i s ((s.engineReset lane).answer i .ok (be 2 (s.causes.engineReset lane).count))

/-! ## The reset cause record -/

/-- The record in a reply: the three flags, the lane and the count (R186). -/
def Causes.chars (c : Causes) : List Byte :=
  [flag c.power, flag c.pin, flag c.engine] ++ be 1 ((c.lane.map laneCode).getD 0) ++ be 2 c.count

/-- RESET CAUSES (R186). -/
def execResetCauses (lane : Lane) (tag : Byte) (s : State) : Host.Outcome State Fault Refusal :=
  .next (s.answer (.resetCauses lane tag) .ok s.causes.chars)

/-- CAUSES CLEAR (R186). -/
def execCausesClear (lane : Lane) (tag : Byte) (s : State) : Host.Outcome State Fault Refusal :=
  let i := Instr.causesClear lane tag
  fullOnly lane i s ({ s with causes := {} }.answer i .ok s.causes.chars)

end Sys2Proof.Machine
end

