-- ==== Sys2Proof/Machine/ShowStore.lean ====
section
/-! DEFINITION. The show store's reads (R77 to R80), the layout of an action item (10.7), and the changes a commit makes to the
store's records (R66 to R70, R168 to R171). -/

namespace Sys2Proof.Machine

/-! ## Action items (10.7) -/

/-- The target characters of an action item. -/
def ActTarget.chars : ActTarget → List Byte
  | .point n => be 1 1 ++ be 2 n
  | .group g => be 1 2 ++ be 2 g

/-- An action item in its 12 characters; a character its kind does not use is 0 (10.7). -/
def Action.chars : Action → List Byte
  | .level t v time curve clear =>
    be 1 1 ++ t.chars ++ signed v ++ be 3 time ++ be 1 curve.code ++ [flag clear] ++ be 1 0
  | .route zone mix => be 1 2 ++ be 1 zone ++ mixBytes mix ++ List.replicate 9 0
  | .mask mix on => be 1 3 ++ be 1 mix ++ be 1 (onCode on) ++ List.replicate 9 0
  | .trigger line (.pulse w) => be 1 4 ++ be 1 line ++ be 1 1 ++ be 2 w ++ List.replicate 7 0
  | .trigger line .set => be 1 4 ++ be 1 line ++ be 1 2 ++ List.replicate 9 0
  | .trigger line .clear => be 1 4 ++ be 1 line ++ be 1 3 ++ List.replicate 9 0
  | .trigger line (.repeating t n) => be 1 4 ++ be 1 line ++ be 1 4 ++ be 2 t ++ be 1 n ++ List.replicate 6 0
  | .halt t => be 1 5 ++ t.chars ++ List.replicate 8 0

/-- The target of an action item: POINT with a point number, or GROUP with a group id, in range (R64). -/
def readTarget (kind n1 n0 : Byte) : Option ActTarget :=
  match kind.toNat with
  | 1 => if nat2 n1 n0 < Config.points then some (.point (nat2 n1 n0)) else none
  | 2 => if nat2 n1 n0 < Config.groups then some (.group (nat2 n1 n0)) else none
  | _ => none

/-- A flag's value: 0 clear, 1 set (R180). -/
def flagOf : Nat → Option Bool
  | 0 => some false
  | 1 => some true
  | _ => none

/-- An action from the 12 characters of its item, or the reason it is at fault (R64, R161): KIND for a kind not in the table,
RANGE for a field out of range or a character its kind or mode does not use that is not 0. -/
def readAction : List Byte → Except InvalidReason Action
  | [k, c1, c2, c3, c4, c5, c6, c7, c8, c9, c10, c11] =>
    let orRange (x : Option Action) : Except InvalidReason Action :=
      match x with | some v => .ok v | none => .error .range
    let unused (cs : List Byte) : Bool := cs.all fun c => c == 0
    match k.toNat with
    | 1 =>
      orRange (match readTarget c1 c2 c3, curveOfCode c9.toNat, flagOf c10.toNat with
        | some t, some curve, some clear =>
          let level := int2 c4 c5
          let time := nat3 c6 c7 c8
          if -900 ≤ level && level ≤ 120 && time ≤ 600000 && unused [c11] then some (.level t level time curve clear)
          else none
        | _, _, _ => none)
    | 2 =>
      let rest := [c3, c4, c5, c6, c7, c8, c9, c10, c11]
      orRange (if Config.zones ≤ c1.toNat || !unused rest then none
        else if c2.toNat < Config.mixes then some (.route c1.toNat (some c2.toNat))
        else if c2.toNat = 255 then some (.route c1.toNat none) else none)
    | 3 =>
      let rest := [c3, c4, c5, c6, c7, c8, c9, c10, c11]
      orRange (match onOfCode c2.toNat with
        | some on => if c1.toNat < Config.mixes && unused rest then some (.mask c1.toNat on) else none
        | none => none)
    | 4 =>
      let ms := nat2 c3 c4
      orRange (if Config.lines ≤ c1.toNat || !unused [c6, c7, c8, c9, c10, c11] then none
        else
          match c2.toNat with
          | 1 => if 1 ≤ ms && ms ≤ 10000 && unused [c5] then some (.trigger c1.toNat (.pulse ms)) else none
          | 2 => if ms = 0 && unused [c5] then some (.trigger c1.toNat .set) else none
          | 3 => if ms = 0 && unused [c5] then some (.trigger c1.toNat .clear) else none
          | 4 =>
            if 20 ≤ ms && ms ≤ 10000 && 1 ≤ c5.toNat then some (.trigger c1.toNat (.repeating ms c5.toNat)) else none
          | _ => none)
    | 5 =>
      orRange (match readTarget c1 c2 c3 with
        | some t => if unused [c4, c5, c6, c7, c8, c9, c10, c11] then some (.halt t) else none
        | none => none)
    | _ => .error .kind
  | _ => .error .range

/-! ## Records changed by a commit -/

/-- An edit count raised by a commit, wrapping from 65,535 to 1 (R69). -/
def nextEdit (n : Nat) : Nat := if n = 65535 then 1 else n + 1

/-- A cue put in its place in number order, replacing a cue of its number (R61). -/
def insertCue (c : Cue) : List Cue → List Cue
  | [] => [c]
  | x :: xs => if c.number < x.number then c :: x :: xs else if c.number = x.number then c :: xs else x :: insertCue c xs

/-- A cue added or replaced whole, its edit count raised (R69, R169). -/
def Store.putCue (c : Cue) (st : Store) : Store :=
  { st with cues := insertCue { c with editCount := nextEdit (st.cueEdit c.number) } st.cues }

/-- A cue removed (R169). -/
def Store.removeCue (n : Nat) (st : Store) : Store := { st with cues := st.cues.filter fun c => c.number != n }

/-- A group added or replaced whole, its edit count raised (R69, R170). -/
def Store.putGroup (id : Nat) (label : List Byte) (members : List Nat) (st : Store) : Store :=
  { st with groups := st.groups.update id fun _ => some ⟨label, members, nextEdit (st.groupEdit id)⟩ }

/-- A group removed (R170). -/
def Store.removeGroup (id : Nat) (st : Store) : Store := { st with groups := st.groups.update id fun _ => none }

/-- A zone setup replaced whole, its edit count raised (R69, R171). -/
def Store.putZoneSetup (z : Nat) (v : ZoneSetup) (st : Store) : Store :=
  { st with zoneSetups := st.zoneSetups.update z fun old => { v with editCount := nextEdit old.editCount } }

/-! ## Reads -/

/-- A label in a reply: its length, then its characters (R180). -/
def nameBytes (label : List Byte) : List Byte := labelBytes label

/-- The entry of one cue in a CUE LIST reply (R77). -/
def cueEntry (c : Cue) : List Byte :=
  be 3 c.number ++ be 2 c.editCount ++ be 1 c.actions.length ++ be 3 c.preWait ++ followBytes c.follow
    ++ [flag c.promptCallable, flag c.curtain]

/-- The cues of a CUE LIST: from a number on, up to a count (R77). -/
def Store.cuesFrom (st : Store) (x n : Nat) : List Cue := (st.cues.filter fun c => decide (x ≤ c.number)).take n

/-- The more flag of a CUE LIST: the stack holds a cue above the last one given (R77). -/
def Store.more (st : Store) (given : List Cue) : Bool :=
  match given.getLast? with
  | some c => (st.nextAfter c.number).isSome
  | none => false

/-- CUE LIST (R77). -/
def execCueList (lane : Lane) (tag : Byte) (fromNumber count : Nat) (s : State) : Host.Outcome State Fault Refusal :=
  let i := Instr.cueList lane tag fromNumber count
  if Config.maxCue < fromNumber || count = 0 || 16 < count then .next (s.answer i .outOfRange [])
  else
    let cs := s.store.cuesFrom fromNumber count
    .next (s.answer i .ok
      (be 2 s.store.cues.length ++ be 2 s.store.freeActions ++ cs.flatMap cueEntry ++ [flag (s.store.more cs)]))

/-- Action items with their indexes, from `first`, up to 12 (R78, R164). -/
def itemsFrom (first : Nat) (acts : List Action) : List Byte :=
  (((mapFrom (fun k x => be 1 k ++ Action.chars x) 0 acts).drop first).take 12).flatten

/-- CUE READ (R78). -/
def execCueRead (lane : Lane) (tag : Byte) (cue firstAction : Nat) (s : State) : Host.Outcome State Fault Refusal :=
  let i := Instr.cueRead lane tag cue firstAction
  match s.store.cue? cue with
  | none => .next (s.answer i .notFound [])
  | some c =>
    if 31 < firstAction then .next (s.answer i .outOfRange [])
    else
      .next (s.answer i .ok
        (be 3 c.number ++ nameBytes c.label ++ be 3 c.preWait ++ followBytes c.follow
          ++ [flag c.promptCallable, flag c.curtain] ++ be 2 c.editCount ++ be 1 c.actions.length
          ++ itemsFrom firstAction c.actions))

/-- GROUP READ (R79). -/
def execGroupRead (lane : Lane) (tag : Byte) (id : Nat) (s : State) : Host.Outcome State Fault Refusal :=
  let i := Instr.groupRead lane tag id
  match s.store.group? id with
  | none => .next (s.answer i .notFound [])
  | some g =>
    .next (s.answer i .ok
      (be 1 id ++ nameBytes g.label ++ be 2 g.editCount ++ be 2 (s.store.references id) ++ be 1 g.members.length
        ++ g.members.flatMap (be 2)))

/-- GROUP LIST (R79). -/
def execGroupList (lane : Lane) (tag : Byte) (s : State) : Host.Outcome State Fault Refusal :=
  let gs := s.store.presentGroups
  .next (s.answer (.groupList lane tag) .ok
    (be 1 gs.length ++ be 2 s.store.freeMembers ++ gs.flatMap fun g => be 1 g.1 ++ be 1 g.2.members.length))

/-- The fields of a zone setup with its edit count (R70, R80). -/
def ZoneSetup.chars (z : ZoneSetup) : List Byte :=
  signed z.duckDepth ++ [flag z.watchEnable] ++ signed z.threshold ++ signed z.hysteresis ++ be 2 z.hold ++ be 2 z.editCount

/-- The fields of the trigger setup with its edit count (R70, R80). -/
def TriggerSetup.chars (t : TriggerSetup) : List Byte :=
  (t.polarity.toList.flatMap fun p => be 1 p.code) ++ be 2 t.editCount

/-- The fields of the show setup with its edit count (R70, R80). -/
def ShowSetup.chars (x : ShowSetup) : List Byte :=
  be 1 x.logMode.code ++ be 2 x.callLimit ++ be 3 x.duckAttack ++ be 3 x.duckRelease ++ be 2 x.editCount

/-- SETUP READ: kind ZONE is 1, TRIGGER 2, SHOW 3 (R80). -/
def execSetupRead (lane : Lane) (tag : Byte) (kind zone : Nat) (s : State) : Host.Outcome State Fault Refusal :=
  let i := Instr.setupRead lane tag kind zone
  match kind with
  | 1 =>
    if Config.zones ≤ zone then .next (s.answer i .outOfRange [])
    else .next (s.answer i .ok (s.zoneSetup zone).chars)
  | 2 => .next (s.answer i .ok s.store.triggerSetup.chars)
  | 3 => .next (s.answer i .ok s.store.showSetup.chars)
  | _ => .next (s.answer i .malformed [])

end Sys2Proof.Machine
end

