-- ==== Sys2Proof/Machine/Stage.lean ====
section
/-! DEFINITION. Staging: the checks of a header and of items (R160, R161), STAGE BEGIN, STAGE ADD and STAGE VERIFY (R162 to
R164), and STAGE COMMIT with its checks in their order and its effects (R165 to R171). -/

namespace Sys2Proof.Machine

/-! ## Checking a header -/

/-- A label character: codes 32–126 (R60, R161). -/
def isLabelChar (c : Byte) : Bool := 32 ≤ c.toNat && c.toNat ≤ 126

/-- A label within its limit and its characters (R161). -/
def labelGood (limit : Nat) (label : List Byte) : Bool := label.length ≤ limit && label.all isLabelChar

/-- The follow of a kind's code and a delay or count, in range; NONE carries 0 (R60, R161, R180). -/
def readFollow (kind value : Nat) : Option Follow :=
  match kind with
  | 1 => if value = 0 then some .none else none
  | 2 => if value ≤ 600000 then some (.afterStart value) else none
  | 3 => if value ≤ 600000 then some (.afterEnd value) else none
  | 4 => if 1 ≤ value && value ≤ 255 then some (.beats value) else none
  | _ => none

/-- The target lies in its kind's range; a kind without a target carries 0 (R160, R161). -/
def targetGood (target : Nat) : StageHeader → Bool
  | .cue .. => 1 ≤ target && target ≤ Config.maxCue
  | .group _ => target < Config.groups
  | .zoneSetup .. => target < Config.zones
  | .triggerSetup _ => target = 0
  | .showSetup .. => target = 0
  | .removeCue => 1 ≤ target && target ≤ Config.maxCue
  | .removeGroup => target < Config.groups
  | .unknown _ _ => false

/-- The declared count lies in its kind's range (R160). -/
def countGood (declared : Nat) : StageHeader → Bool
  | .cue .. => declared ≤ 32
  | .group _ => 1 ≤ declared && declared ≤ 64
  | .zoneSetup .. => declared = 0
  | .triggerSetup _ => declared = 0
  | .showSetup .. => declared = 0
  | .removeCue => declared = 0
  | .removeGroup => declared = 0
  | .unknown _ _ => false

/-- The fault of the header fields, if any: a label first, since it is the first field of its kinds (R160, R161). -/
def fieldFault : StageHeader → Option InvalidReason
  | .cue label preWait fk fv prompt curtain =>
    if !labelGood 24 label then some .label
    else if preWait ≤ 600000 && (readFollow fk fv).isSome && (flagOf prompt).isSome && (flagOf curtain).isSome then none
    else some .range
  | .group label => if labelGood 16 label then none else some .label
  | .zoneSetup depth enable threshold hysteresis hold =>
    if 0 ≤ depth && depth ≤ 600 && (flagOf enable).isSome && -800 ≤ threshold && threshold ≤ -100 && 0 ≤ hysteresis
      && hysteresis ≤ 200 && 1 ≤ hold && hold ≤ 6000 then none else some .range
  | .triggerSetup ps => if ps.all fun p => (polarityOfCode p).isSome then none else some .range
  | .showSetup mode limit attack release =>
    if (logModeOfCode mode).isSome && 5 ≤ limit && limit ≤ 600 && attack ≤ 2000 && release ≤ 5000 then none
    else some .range
  | .removeCue => none
  | .removeGroup => none
  | .unknown _ _ => some .kind

/-- The first fault of a header: target, declared count, then the fields (R161). -/
def headerFault (target : Nat) (h : StageHeader) (declared : Nat) : Option InvalidReason :=
  if !targetGood target h then some .range else if !countGood declared h then some .count else fieldFault h

/-- The edit count captured at STAGE BEGIN: the target record's, 0 where it is absent or the target is out of range, as any target
but 0 is for a kind without one (R160, R162). -/
def Store.editCountOf (st : Store) (target : Nat) : StageHeader → Nat
  | .cue .. => st.cueEdit target
  | .removeCue => st.cueEdit target
  | .group _ => st.groupEdit target
  | .removeGroup => st.groupEdit target
  | .zoneSetup .. => ((st.zoneSetups.toList[target]?).map (·.editCount)).getD 0
  | .triggerSetup _ => if target = 0 then st.triggerSetup.editCount else 0
  | .showSetup .. => if target = 0 then st.showSetup.editCount else 0
  | .unknown _ _ => 0

/-! ## STAGE BEGIN -/

/-- A header whose characters fit a kind of the seven; a trigger setup holds sixteen polarities (R162, R180). -/
def headerFits : StageHeader → Bool
  | .unknown _ _ => false
  | .triggerSetup ps => ps.length == Config.lines
  | .cue .. | .group _ | .zoneSetup .. | .showSetup .. | .removeCue | .removeGroup => true

/-- The status of a new image after its header's check (R162). -/
def beginStatus (target : Nat) (h : StageHeader) (declared : Nat) : ImageStatus :=
  match headerFault target h declared with
  | some r => .invalid r none
  | none => if declared = 0 then .complete else .opened

/-- The new image of a STAGE BEGIN (R162). -/
def Store.newImage (st : Store) (target : Nat) (h : StageHeader) (declared : Nat) : Image where
  status := beginStatus target h declared
  header := h
  target := target
  declared := declared
  actions := []
  members := []
  expected := st.editCountOf target h
  committed := false

/-- The reason character of a status, 0 when the image is not INVALID (R159, R180). -/
def reasonByte : ImageStatus → List Byte
  | .opened => be 1 0
  | .complete => be 1 0
  | .invalid r _ => be 1 r.code

/-- The item index of a status, which may be absent (R159, R180). -/
def indexBytes : ImageStatus → List Byte
  | .opened => optBytes 1 none
  | .complete => optBytes 1 none
  | .invalid _ x => optBytes 1 x

/-- STAGE BEGIN (R162). -/
def execStageBegin (lane : Lane) (tag : Byte) (target : Nat) (header : StageHeader) (declared : Nat) (s : State) :
    Host.Outcome State Fault Refusal :=
  let i := Instr.stageBegin lane tag target header declared
  fullOnly lane i s
    (if headerFits header then
      let image := s.store.newImage target header declared
      (s.setBuffer lane (some image)).answer i .ok
        (be 1 (statusCode (some image)) ++ reasonByte image.status ++ be 2 image.expected)
    else s.answer i .malformed [])

/-! ## STAGE ADD -/

/-- The items staged so far. -/
def Image.staged (m : Image) : Nat := m.actions.length + m.members.length

/-- The length of an item of the image's kind: 12 for an action of a CUE, 2 for a point number of a GROUP (R163). -/
def itemLength : StageHeader → Option Nat
  | .cue .. => some 12
  | .group _ => some 2
  | .zoneSetup .. => none
  | .triggerSetup _ => none
  | .showSetup .. => none
  | .removeCue => none
  | .removeGroup => none
  | .unknown _ _ => none

/-- Characters cut into `n` items of `w` characters each. -/
def cutItems (w : Nat) : Nat → List Byte → List (List Byte)
  | 0, _ => []
  | n + 1, cs => cs.take w :: cutItems w n (cs.drop w)

/-- The 1 to 12 whole items a body holds, if it does (R163). -/
def itemsOf (h : StageHeader) (cs : List Byte) : Option (List (List Byte)) :=
  match itemLength h with
  | none => none
  | some w =>
    let n := cs.length / w
    if cs.length % w = 0 && 1 ≤ n && n ≤ 12 then some (cutItems w n cs) else none

/-- The image with a good item appended; the item that brings it to the declared count makes it COMPLETE (R163). -/
def Image.filled (m : Image) : Image := if m.staged = m.declared then { m with status := .complete } else m

/-- One item staged: OVERFLOW beyond the declared count, else checked and appended, or at fault (R161, R163). -/
def Image.addItem (m : Image) (item : List Byte) : Image :=
  let bad (r : InvalidReason) : Image := { m with status := .invalid r (some m.staged) }
  if m.declared ≤ m.staged then bad .overflow
  else
    match m.header with
    | .cue .. =>
      match readAction item with
      | .ok x => Image.filled { m with actions := m.actions ++ [x] }
      | .error r => bad r
    | _ =>
      match item with
      | [c1, c0] =>
        let p := nat2 c1 c0
        if Config.points ≤ p then bad .range
        else if m.members.contains p then bad .duplicate
        else Image.filled { m with members := m.members ++ [p] }
      | _ => bad .range

/-- The image has been found INVALID. -/
def Image.isInvalid (m : Image) : Bool :=
  match m.status with
  | .invalid _ _ => true
  | .opened => false
  | .complete => false

/-- Items staged in order; the first that makes the image INVALID ends the request (R163). -/
def addItems : List (List Byte) → Image → Image
  | [], m => m
  | x :: xs, m =>
    let next := m.addItem x
    if next.isInvalid then next else addItems xs next

/-- STAGE ADD (R163). -/
def execStageAdd (lane : Lane) (tag : Byte) (items : List Byte) (s : State) : Host.Outcome State Fault Refusal :=
  let i := Instr.stageAdd lane tag items
  fullOnly lane i s
    (match s.buffer lane with
    | none => s.answer i .notPermitted []
    | some m =>
      if m.status != .opened then s.answer i .notPermitted []
      else
        match itemsOf m.header items with
        | none => s.answer i .malformed []
        | some xs =>
          let after := addItems xs m
          (s.setBuffer lane (some after)).answer i .ok
            (be 1 (statusCode (some after)) ++ be 1 after.staged ++ reasonByte after.status ++ indexBytes after.status))

/-! ## STAGE VERIFY -/

/-- The items of a STAGE VERIFY reply: a GROUP's members whole, a CUE's actions from the index asked for (R164). -/
def Image.itemBytes (m : Image) (first : Nat) : List Byte :=
  match m.header with
  | .cue .. => itemsFrom first m.actions
  | .group _ => m.members.flatMap (be 2)
  | .zoneSetup .. => []
  | .triggerSetup _ => []
  | .showSetup .. => []
  | .removeCue => []
  | .removeGroup => []
  | .unknown _ _ => []

/-- An image in a STAGE VERIFY reply (R164). -/
def Image.chars (m : Image) (first : Nat) : List Byte :=
  be 1 (statusCode (some m)) ++ reasonByte m.status ++ indexBytes m.status ++ be 1 m.header.kindCode ++ be 3 m.target
    ++ headerBytes m.header ++ be 1 m.declared ++ be 1 m.staged ++ be 2 m.expected ++ [flag m.committed]
    ++ m.itemBytes first

/-- The body of a reply as its frame carries it. Where its fields are more than the 250 characters of a body (R175), as for an
image whose over-long label was staged and found INVALID, the spec states no reply, and the body is a free value. -/
def fitBody (fields : List Byte) : List Byte :=
  if fields.length ≤ Config.bodyLimit then fields else Config.overlongReply fields

/-- The image is of kind CUE. -/
def Image.isCue (m : Image) : Bool := m.header.kindCode == 1

/-- STAGE VERIFY (R164). -/
def execStageVerify (lane : Lane) (tag : Byte) (firstItem : Nat) (s : State) : Host.Outcome State Fault Refusal :=
  let i := Instr.stageVerify lane tag firstItem
  fullOnly lane i s
    (match s.buffer lane with
    | none => s.answer i .ok (be 1 (statusCode none))
    | some m =>
      if m.isCue && 31 < firstItem then s.answer i .outOfRange []
      else s.answer i .ok (fitBody (m.chars firstItem)))

/-! ## STAGE COMMIT: the checks -/

/-- The first action that names a group absent from the table: its index and the group (R167). -/
def Store.missingGroup (st : Store) : Nat → List Action → Option (Nat × Nat)
  | _, [] => none
  | k, x :: xs =>
    match x.groupNamed with
    | some g => if (st.group? g).isNone then some (k, g) else st.missingGroup (k + 1) xs
    | none => st.missingGroup (k + 1) xs

/-- What the sixth check finds missing: the record or group, and the index of the action naming it, if one does (R167). -/
def Store.missing (st : Store) (m : Image) : Option (Nat × Option Nat) :=
  match m.header with
  | .cue .. => (st.missingGroup 0 m.actions).map fun x => (x.2, some x.1)
  | .removeCue => if (st.cue? m.target).isNone then some (m.target, none) else none
  | .removeGroup => if (st.group? m.target).isNone then some (m.target, none) else none
  | .group _ => none
  | .zoneSetup .. => none
  | .triggerSetup _ => none
  | .showSetup .. => none
  | .unknown _ _ => none

/-- The limit the seventh check finds exceeded: the cue limit is 1, the action pool 2, the group member pool 3 (R167). -/
def Store.exceeded (st : Store) (m : Image) : Option Nat :=
  match m.header with
  | .cue .. =>
    let held := ((st.cue? m.target).map fun c => c.actions.length).getD 0
    if (st.cue? m.target).isNone && Config.cueLimit ≤ st.cues.length then some 1
    else if st.freeActions + held < m.declared then some 2 else none
  | .group _ =>
    let held := ((st.group? m.target).map fun g => g.members.length).getD 0
    if st.freeMembers + held < m.declared then some 3 else none
  | .zoneSetup .. => none
  | .triggerSetup _ => none
  | .showSetup .. => none
  | .removeCue => none
  | .removeGroup => none
  | .unknown _ _ => none

/-- The image is of a cue, and its target has a run (R166). -/
def State.imageBusy (s : State) (m : Image) : Bool :=
  (m.header.kindCode == 1 || m.header.kindCode == 6) && (s.run? m.target).isSome

/-- The four echoed fields equal the buffer's (R165). -/
def Image.matchesEcho (m : Image) (kind target declared expected : Nat) : Bool :=
  m.header.kindCode == kind && m.target == target && m.declared == declared && m.expected == expected

/-- The first check of a commit that fails, with what its reply carries; none when the commit is taken (R165). -/
def State.commitRefusal (s : State) (buffer : Option Image) (kind target declared expected : Nat) :
    Option (Status × List Byte) :=
  match buffer with
  | none => some (.notComplete, be 1 (statusCode none))
  | some m =>
    if m.status != .complete then some (.notComplete, be 1 (statusCode (some m)))
    else if !m.matchesEcho kind target declared expected then some (.mismatch, [])
    else if s.record.state.inShow then some (.locked, be 1 s.record.state.code)
    else if s.imageBusy m then some (.busy, be 3 m.target)
    else if s.store.editCountOf m.target m.header != m.expected then
      some (.changed, be 2 (s.store.editCountOf m.target m.header))
    else
      match s.store.missing m with
      | some x => some (.notFound, be 3 x.1 ++ optBytes 1 x.2)
      | none =>
        match s.store.exceeded m with
        | some k => some (.full, be 1 k)
        | none =>
          if m.header.kindCode = 7 && 0 < s.store.references m.target then
            some (.inUse, be 2 (s.store.references m.target))
          else none

/-! ## STAGE COMMIT: the effects -/

/-- A CUE image added or replaced; the first cue of an empty stack becomes standby (R73, R169). -/
def State.commitCue (c : Cue) (s : State) : State :=
  let stored := { s with store := s.store.putCue c }
  if s.store.cues.isEmpty then stored.setStandby (some c.number) else stored

/-- A cue removed; when it was standby, standby moves to the next cue after it (R74, R169). -/
def State.commitRemoveCue (n : Nat) (s : State) : State :=
  let stored := { s with store := s.store.removeCue n }
  if s.runner.standby = some n then stored.setStandby (stored.store.nextAfter n) else stored

/-- A zone setup replaced; a changed duck depth reaches the zone router at the commit itself (R111, R171). -/
def State.commitZoneSetup (z : Nat) (v : ZoneSetup) (s : State) : State :=
  let stored := { s with store := s.store.putZoneSetup z v }
  if (s.zoneSetup z).duckDepth = v.duckDepth then stored else stored.onZone z (stored.depthChanged v.duckDepth)

/-- The effects of a commit that belong to the image's kind (R168 to R171). Every field of a COMPLETE image is in range, so the
values that stand in for one out of range are never read. -/
def State.commitImage (m : Image) (s : State) : State :=
  match m.header with
  | .cue label preWait fk fv prompt curtain =>
    s.commitCue ⟨m.target, label, preWait, (readFollow fk fv).getD .none, (flagOf prompt).getD false,
      (flagOf curtain).getD false, m.actions, 0⟩
  | .group label => { s with store := s.store.putGroup m.target label m.members }
  | .zoneSetup depth enable threshold hysteresis hold =>
    s.commitZoneSetup m.target ⟨depth, (flagOf enable).getD false, threshold, hysteresis, hold, 0⟩
  | .triggerSetup ps =>
    { s with store := { s.store with triggerSetup :=
      ⟨.tabulate _ fun k => (polarityOfCode (ps.getD k 1)).getD .activeHigh,
        nextEdit s.store.triggerSetup.editCount⟩ } }
  | .showSetup mode limit attack release =>
    { s with store := { s.store with showSetup :=
      ⟨(logModeOfCode mode).getD .wrap, limit, attack, release, nextEdit s.store.showSetup.editCount⟩ } }
  | .removeCue => s.commitRemoveCue m.target
  | .removeGroup => { s with store := s.store.removeGroup m.target }
  | .unknown _ _ => s

/-- A commit taken: the effects of its kind, the committed flag, and the STORE notice to the two other lanes (R168). -/
def State.takeCommit (lane : Lane) (m : Image) (s : State) : State :=
  ((s.commitImage m).setBuffer lane (some { m with committed := true })).noticeOthers lane .store

/-- The reply of a commit taken (R168). -/
def State.commitReply (s : State) (m : Image) : List Byte :=
  be 1 m.header.kindCode ++ be 3 m.target ++ be 2 (s.store.editCountOf m.target m.header) ++ cueBytes s.runner.standby
    ++ be 2 s.store.cues.length ++ be 2 s.store.freeActions ++ be 1 s.store.presentGroups.length
    ++ be 2 s.store.freeMembers

/-- STAGE COMMIT (R165). -/
def execStageCommit (lane : Lane) (tag : Byte) (kind target declared expected : Nat) (s : State) :
    Host.Outcome State Fault Refusal :=
  let i := Instr.stageCommit lane tag kind target declared expected
  fullOnly lane i s
    (match s.commitRefusal (s.buffer lane) kind target declared expected, s.buffer lane with
    | some x, _ => s.answer i x.1 x.2
    | none, none => s
    | none, some m =>
      let t := s.takeCommit lane m
      t.answer i .ok (t.commitReply m))

end Sys2Proof.Machine
end

