-- ==== Sys2Proof/Machine/GoodFrame.lean ====
section
/-! DEFINITION. GOOD_FRAME: a frame whose check matches is taken to the request slot, checked for code, role and body, and
handed to the block that owns the state its request names (R178). -/

namespace Sys2Proof.Machine

/-- A request handed to its owner, which takes it as its own rule gives (R178 step 5); an event of the engine is in no frame. -/
def handToOwner (i : Instr) (s : State) : Host.Outcome State Fault Refusal :=
  match i with
  | .levelSet lane tag target level => execLevelSet lane tag target level s
  | .trimNudge lane tag target delta => execTrimNudge lane tag target delta s
  | .trimSet lane tag target value => execTrimSet lane tag target value s
  | .trimClear lane tag target => execTrimClear lane tag target s
  | .levelRead lane tag first count => execLevelRead lane tag first count s
  | .inputSwap lane tag first second => execInputSwap lane tag first second s
  | .inputRestore lane tag => execInputRestore lane tag s
  | .inputMapRead lane tag => execInputMapRead lane tag s
  | .mixMask lane tag mix state => execMixMask lane tag mix state s
  | .audioStatus lane tag => execAudioStatus lane tag s
  | .fadeStatus lane tag first count => execFadeStatus lane tag first count s
  | .cueList lane tag fromNumber count => execCueList lane tag fromNumber count s
  | .cueRead lane tag cue firstAction => execCueRead lane tag cue firstAction s
  | .groupRead lane tag id => execGroupRead lane tag id s
  | .groupList lane tag => execGroupList lane tag s
  | .setupRead lane tag kind zone => execSetupRead lane tag kind zone s
  | .go lane tag expected => execGo lane tag expected s
  | .standbySet lane tag cue => execStandbySet lane tag cue s
  | .panic lane tag => execPanic lane tag s
  | .runStatus lane tag first => execRunStatus lane tag first s
  | .triggerStatus lane tag => execTriggerStatus lane tag s
  | .zoneRoute lane tag zone mix => execZoneRoute lane tag zone mix s
  | .zoneStatus lane tag first count => execZoneStatus lane tag first count s
  | .callOpen lane tag cls zones level => execCallOpen lane tag cls zones level s
  | .callClose lane tag => execCallClose lane tag s
  | .callStatus lane tag => execCallStatus lane tag s
  | .alarmPoll lane tag first => execAlarmPoll lane tag first s
  | .alarmsAck lane tag zones => execAlarmsAck lane tag zones s
  | .arm lane tag mode delay => execArm lane tag mode delay s
  | .intervalBegin lane tag => execIntervalBegin lane tag s
  | .intervalEnd lane tag => execIntervalEnd lane tag s
  | .finish lane tag => execFinish lane tag s
  | .recordClear lane tag => execRecordClear lane tag s
  | .recordStatus lane tag => execRecordStatus lane tag s
  | .readLog lane tag fromSeq => execReadLog lane tag fromSeq s
  | .stageBegin lane tag target header declared => execStageBegin lane tag target header declared s
  | .stageAdd lane tag items => execStageAdd lane tag items s
  | .stageVerify lane tag firstItem => execStageVerify lane tag firstItem s
  | .stageCommit lane tag kind target declared expected => execStageCommit lane tag kind target declared expected s
  | .notices lane tag => execNotices lane tag s
  | .laneStatus lane tag named => execLaneStatus lane tag named s
  | .engineReset lane tag => execEngineReset lane tag s
  | .resetCauses lane tag => execResetCauses lane tag s
  | .causesClear lane tag => execCausesClear lane tag s
  | .identity lane tag => execIdentity lane tag s
  | .powerOn | .resetPin | .goodFrame _ _ | .checkError _ _ _ | .framingError _ | .frameTruncated _ _ | .frameGap _
  | .replySent _ | .laneReset _ | .preWaitEnd _ | .fadeAdvance | .fadeCompletion _ | .followExpiry _ | .beat |
  .pulseEnd _ | .repeatPhaseEnd _ | .callTimeout | .duckRampAdvance | .duckRampEnd _ | .audioFrame _ _ | .windowEnd
  | .clockLoss | .clockReturn | .audioRestored | .delayExpiry | .lineReturnedHigh _ | .performanceClockMillisecond
  => .next s

/-- A frame that has entered the slot: refused by the lane with an empty body, or handed to its owner (R178 steps 2 to 5). -/
def takeFrame (l : Lane) (f : Frame) (s : State) : Host.Outcome State Fault Refusal :=
  if isRequestCode f.code then
    if rolePermits l f.code then
      match parseRequest l f with
      | some i => handToOwner i s
      | none => .next (s.reply l f .malformed [])
    else .next (s.reply l f .refusedRole [])
  else .next (s.reply l f .unknownRequest [])

/-- The lane's receiver has completed a frame: nothing is in assembly any more (R175). -/
def State.endAssembly (l : Lane) (s : State) : State := s.onLane l fun x => { x with assembly := none }

/-- The frame enters the empty slot (R178 step 2). -/
def State.enterSlot (l : Lane) (f : Frame) (s : State) : State := s.onLane l fun x => { x with slot := some f }

/-- A frame that finds the slot occupied is dropped (R178 step 1). -/
def State.dropFrame (l : Lane) (s : State) : State := s.onLane l fun x => { x with dropped := bump8 x.dropped }

/-- GOOD_FRAME (R178). A line that is low completes no frame (R174). -/
def execGoodFrame (lane : Lane) (frame : Frame) (s : State) : Host.Outcome State Fault Refusal :=
  let x := s.lanes.get lane
  if x.receives then
    if x.slot.isSome then .next ((s.endAssembly lane).dropFrame lane)
    else takeFrame lane frame ((s.endAssembly lane).enterSlot lane frame)
  else .next s

end Sys2Proof.Machine
end

