-- ==== Sys2Proof/Machine/Dispatch.lean ====
section
/-! DEFINITION. Each command to its meaning. -/

namespace Sys2Proof.Machine

/-- The effect of a command on everything but the queue. -/
def exec (i : Instr) (s : State) : Host.Outcome State Fault Refusal :=
  match i with
  | .powerOn => Sys2Proof.Machine.execPowerOn s
  | .resetPin => Sys2Proof.Machine.execResetPin s
  | .goodFrame lane frame => Sys2Proof.Machine.execGoodFrame lane frame s
  | .checkError lane frame received => Sys2Proof.Machine.execCheckError lane frame received s
  | .framingError lane => Sys2Proof.Machine.execFramingError lane s
  | .frameTruncated lane cause => Sys2Proof.Machine.execFrameTruncated lane cause s
  | .frameGap lane => Sys2Proof.Machine.execFrameGap lane s
  | .replySent lane => Sys2Proof.Machine.execReplySent lane s
  | .laneReset lane => Sys2Proof.Machine.execLaneReset lane s
  | .levelSet lane tag target level => Sys2Proof.Machine.execLevelSet lane tag target level s
  | .trimNudge lane tag target delta => Sys2Proof.Machine.execTrimNudge lane tag target delta s
  | .trimSet lane tag target value => Sys2Proof.Machine.execTrimSet lane tag target value s
  | .trimClear lane tag target => Sys2Proof.Machine.execTrimClear lane tag target s
  | .levelRead lane tag first count => Sys2Proof.Machine.execLevelRead lane tag first count s
  | .inputSwap lane tag first second => Sys2Proof.Machine.execInputSwap lane tag first second s
  | .inputRestore lane tag => Sys2Proof.Machine.execInputRestore lane tag s
  | .inputMapRead lane tag => Sys2Proof.Machine.execInputMapRead lane tag s
  | .mixMask lane tag mix state => Sys2Proof.Machine.execMixMask lane tag mix state s
  | .audioStatus lane tag => Sys2Proof.Machine.execAudioStatus lane tag s
  | .fadeStatus lane tag first count => Sys2Proof.Machine.execFadeStatus lane tag first count s
  | .cueList lane tag fromNumber count => Sys2Proof.Machine.execCueList lane tag fromNumber count s
  | .cueRead lane tag cue firstAction => Sys2Proof.Machine.execCueRead lane tag cue firstAction s
  | .groupRead lane tag id => Sys2Proof.Machine.execGroupRead lane tag id s
  | .groupList lane tag => Sys2Proof.Machine.execGroupList lane tag s
  | .setupRead lane tag kind zone => Sys2Proof.Machine.execSetupRead lane tag kind zone s
  | .go lane tag expected => Sys2Proof.Machine.execGo lane tag expected s
  | .preWaitEnd cue => Sys2Proof.Machine.execPreWaitEnd cue s
  | .fadeAdvance => Sys2Proof.Machine.execFadeAdvance s
  | .fadeCompletion slot => Sys2Proof.Machine.execFadeCompletion slot s
  | .followExpiry cue => Sys2Proof.Machine.execFollowExpiry cue s
  | .beat => Sys2Proof.Machine.execBeat s
  | .standbySet lane tag cue => Sys2Proof.Machine.execStandbySet lane tag cue s
  | .panic lane tag => Sys2Proof.Machine.execPanic lane tag s
  | .runStatus lane tag first => Sys2Proof.Machine.execRunStatus lane tag first s
  | .triggerStatus lane tag => Sys2Proof.Machine.execTriggerStatus lane tag s
  | .pulseEnd line => Sys2Proof.Machine.execPulseEnd line s
  | .repeatPhaseEnd line => Sys2Proof.Machine.execRepeatPhaseEnd line s
  | .zoneRoute lane tag zone mix => Sys2Proof.Machine.execZoneRoute lane tag zone mix s
  | .zoneStatus lane tag first count => Sys2Proof.Machine.execZoneStatus lane tag first count s
  | .callOpen lane tag cls zones level => Sys2Proof.Machine.execCallOpen lane tag cls zones level s
  | .callClose lane tag => Sys2Proof.Machine.execCallClose lane tag s
  | .callTimeout => Sys2Proof.Machine.execCallTimeout s
  | .callStatus lane tag => Sys2Proof.Machine.execCallStatus lane tag s
  | .duckRampAdvance => Sys2Proof.Machine.execDuckRampAdvance s
  | .duckRampEnd zone => Sys2Proof.Machine.execDuckRampEnd zone s
  | .audioFrame i0 i1 => Sys2Proof.Machine.execAudioFrame i0 i1 s
  | .windowEnd => Sys2Proof.Machine.execWindowEnd s
  | .clockLoss => Sys2Proof.Machine.execClockLoss s
  | .clockReturn => Sys2Proof.Machine.execClockReturn s
  | .audioRestored => Sys2Proof.Machine.execAudioRestored s
  | .alarmPoll lane tag first => Sys2Proof.Machine.execAlarmPoll lane tag first s
  | .alarmsAck lane tag zones => Sys2Proof.Machine.execAlarmsAck lane tag zones s
  | .arm lane tag mode delay => Sys2Proof.Machine.execArm lane tag mode delay s
  | .delayExpiry => Sys2Proof.Machine.execDelayExpiry s
  | .intervalBegin lane tag => Sys2Proof.Machine.execIntervalBegin lane tag s
  | .intervalEnd lane tag => Sys2Proof.Machine.execIntervalEnd lane tag s
  | .finish lane tag => Sys2Proof.Machine.execFinish lane tag s
  | .recordClear lane tag => Sys2Proof.Machine.execRecordClear lane tag s
  | .recordStatus lane tag => Sys2Proof.Machine.execRecordStatus lane tag s
  | .readLog lane tag fromSeq => Sys2Proof.Machine.execReadLog lane tag fromSeq s
  | .stageBegin lane tag target header declared => Sys2Proof.Machine.execStageBegin lane tag target header declared s
  | .stageAdd lane tag items => Sys2Proof.Machine.execStageAdd lane tag items s
  | .stageVerify lane tag firstItem => Sys2Proof.Machine.execStageVerify lane tag firstItem s
  | .stageCommit lane tag kind target declared expected => Sys2Proof.Machine.execStageCommit lane tag kind target declared expected s
  | .notices lane tag => Sys2Proof.Machine.execNotices lane tag s
  | .laneStatus lane tag named => Sys2Proof.Machine.execLaneStatus lane tag named s
  | .engineReset lane tag => Sys2Proof.Machine.execEngineReset lane tag s
  | .resetCauses lane tag => Sys2Proof.Machine.execResetCauses lane tag s
  | .causesClear lane tag => Sys2Proof.Machine.execCausesClear lane tag s
  | .identity lane tag => Sys2Proof.Machine.execIdentity lane tag s
  | .lineReturnedHigh lane => Sys2Proof.Machine.execLineReturnedHigh lane s
  | .performanceClockMillisecond => Sys2Proof.Machine.execPerformanceClockMillisecond s

end Sys2Proof.Machine
end

