-- ==== Sys2Proof/Machine/TimeBase.lean ====
section
/-! DEFINITION. One millisecond of the internal time base, in which every timed operation of every block moves on: the clock
fault's length (R37), the performance clock (R146), the arming delay (R144), pre-waits and follow delays (R89, R93), fades
(R41), trigger lines (R100, R101), duck ramps (R109) and the call limit (R119). The table of operations has no row for it;
`step` takes it when no command waits. Nothing that begins in a millisecond counts that millisecond. -/

namespace Sys2Proof.Machine

/-! ## The performance record -/

/-- One millisecond of the arming delay: the one that brings it to 0 starts the performance (R144). -/
def State.tickDelay (s : State) : State :=
  if s.record.awaitsDelay then
    if s.record.delayRemaining ≤ 1 then s.startPerformance .engine none
    else { s with record := { s.record with delayRemaining := s.record.delayRemaining - 1 } }
  else s

/-! ## The runs -/

/-- The run's pre-wait ends at this millisecond (R89). -/
def Run.preWaitDue (r : Run) : Bool := r.state == .preWait && decide (r.preWait ≤ 1)

/-- The run's follow delay ends at this millisecond (R93). -/
def Run.followDue (r : Run) : Bool := r.followState == .timing && decide (r.followRemaining ≤ 1)

/-- One millisecond of a run's pre-wait and of its follow delay (R89, R93). -/
def Run.tick (r : Run) : Run :=
  { r with
    preWait := if r.state = .preWait then r.preWait - 1 else r.preWait
    followRemaining := if r.followState = .timing then r.followRemaining - 1 else r.followRemaining }

/-- One millisecond of every run. -/
def State.tickRuns (s : State) : State :=
  { s with runner := { s.runner with runs := s.runner.runs.map Run.tick } }

/-- The dispatch of a run whose pre-wait has ended (R89). -/
def State.dispatchDue (s : State) (c : Nat) : State :=
  match s.run? c with
  | none => s
  | some r => if r.state = .preWait then s.dispatch c else s

/-- The pre-waits that end, dispatched oldest first, and then the follow delays that end, expired oldest first (R89). -/
def State.takeDue (preWaits follows : List Nat) (s : State) : State :=
  takeRuns (fun c s => s.expireFollow c) follows (preWaits.foldl State.dispatchDue s)

/-! ## The trigger lines and the live call -/

/-- One millisecond of every trigger line (R100, R101). -/
def State.tickLines (s : State) : State :=
  { s with runner := { s.runner with lines := s.runner.lines.mapIdx fun _ x => x.tick } }

/-- Greatest time live kept, in ms; the reply gives whole seconds to 65,535 (R124). -/
def maxTimeLive : Nat := 65535000

/-- One millisecond of the live call (R112). -/
def LiveCall.tick (x : LiveCall) : LiveCall := { x with limit := x.limit - 1, timeLive := bump maxTimeLive x.timeLive }

/-- One millisecond of the call queue. -/
def State.tickCall (s : State) : State := { s with calls := { s.calls with live := s.calls.live.map LiveCall.tick } }

/-- The live call whose limit has reached 0 ends (R119). -/
def State.timeoutDue (s : State) : State :=
  match s.calls.live with
  | none => s
  | some x => if x.limit = 0 then s.endAndGrant .timeout else s

/-! ## The millisecond -/

/-- One millisecond of the internal time base. -/
def State.tick (s : State) : State :=
  let runs := s.runner.runs
  let preWaits := (runs.filter Run.preWaitDue).map (·.cue)
  let follows := (runs.filter Run.followDue).map (·.cue)
  let clocked := { s with timeBase := s.timeBase + 1, audio := s.audio.tick, record := s.record.tickClock }
  let moved := clocked.tickDelay.tickRuns.advanceSlots.tickLines.advanceRamps.tickCall
  (moved.takeDue preWaits follows).timeoutDue

end Sys2Proof.Machine
end

