-- ==== Sys2Proof/Machine/Receiver.lean ====
section
/-! DEFINITION. The receiver of a lane, bit by bit and character by character (R174 to R176). The table of operations has no row
for a character: the rows GOOD_FRAME, CHECK_ERROR, FRAMING_ERROR and FRAME_TRUNCATED are what characters come to, and
`receiveBits` and `receiveChar` say which. -/

namespace Sys2Proof.Machine

/-- What the receiver makes of a character besides keeping it in assembly. -/
inductive Received where
  /-- The character joins a frame in assembly, or begins one. -/
  | assembling
  /-- The character's stop bit is 0: it is discarded, and a frame in assembly is abandoned (R174). -/
  | framingError
  | good (f : Frame)
  | checkError (f : Frame) (received : Check)
  | truncated (cause : TruncatedCause)
deriving DecidableEq, Repr

/-- The check that two check characters carry (R176). -/
def checkOf (hi lo : Byte) : Check := BitVec.ofNat 16 (nat2 hi lo)

/-- A frame whose second check character has arrived (R175, R176). -/
def completeFrame (f : Frame) (received : Check) : Received :=
  if received = frameCheck f then .good f else .checkError f received

/-- A character without mark with the characters `cs` in assembly, from the header on (R175). -/
def assemble (cs : List Byte) (c : Byte) : Option (List Byte) × Received :=
  match cs with
  | [] => (none, .truncated (.stray c))
  | [_] => if 250 < c.toNat then (none, .truncated (.lengthOver c)) else (some (cs ++ [c]), .assembling)
  | [_, _] => (some (cs ++ [c]), .assembling)
  | tag :: n :: code :: rest =>
    if rest.length = n.toNat + 1 then
      (none, completeFrame ⟨tag, code, rest.take n.toNat⟩ (checkOf (rest.getD n.toNat 0) c))
    else (some (cs ++ [c]), .assembling)

/-- One character received: what is then in assembly, and what it comes to (R175). -/
def receiveChar (assembly : Option (List Byte)) (c : Character) : Option (List Byte) × Received :=
  match c.mark, assembly with
  | true, none => (some [c.data], .assembling)
  | true, some _ => (some [c.data], .truncated (.mark c.data))
  | false, none => (none, .truncated (.stray c.data))
  | false, some cs => assemble cs c.data

/-- Characters received in order, and what the last comes to. -/
def receiveChars : Option (List Byte) → List Character → Option (List Byte) × Received
  | a, [] => (a, .assembling)
  | a, [c] => receiveChar a c
  | a, c :: d :: cs => receiveChars (receiveChar a c).1 (d :: cs)

/-! ## The bits of a character -/

/-- The number whose bits these are, from the least significant. -/
def bitsValue : List Bool → Nat
  | [] => 0
  | b :: bs => (if b then 1 else 0) + 2 * bitsValue bs

/-- What 11 bits on a receive line come to. -/
inductive LineRead where
  | character (c : Character)
  /-- The stop bit is 0 (R174). -/
  | framingError
  /-- The first bit is no start bit, or there are not 11. -/
  | noCharacter
deriving DecidableEq, Repr

/-- The 11 bits of a character as they come: a start bit of 0, eight data bits from the least significant, the mark bit, and a
stop bit, which must be 1 (R174). -/
def readBits : List Bool → LineRead
  | [false, b0, b1, b2, b3, b4, b5, b6, b7, mark, stop] =>
    if stop then .character ⟨mark, BitVec.ofNat 8 (bitsValue [b0, b1, b2, b3, b4, b5, b6, b7])⟩ else .framingError
  | _ => .noCharacter

/-- The 11 bits of a character received: a character with a stop bit of 0 joins no frame and ends the one in assembly (R174). -/
def receiveBits (assembly : Option (List Byte)) (bits : List Bool) : Option (List Byte) × Received :=
  match readBits bits with
  | .character c => receiveChar assembly c
  | .framingError => (none, .framingError)
  | .noCharacter => (assembly, .assembling)

end Sys2Proof.Machine
end

