-- ==== Sys2Proof/Safety.lean ====
section
/-! DEFINITION. What a safe run keeps, in the terms claims use: the relations among the pieces of state that the manual says hold
at all times, what it means that a request has been answered or that lanes have been given notices, what a list of actions
that are whole at once leaves, and what a beat and the reports of emptied slots make of the runs. -/

namespace Sys2Proof.Machine

/-! ## Answers and notices -/

/-- Kinds added to a lane's notice set (R183). -/
def LaneState.notifyAll (ks : List Notice) (x : LaneState) : LaneState := ks.foldl (fun x k => x.notify k) x

/-- Every lane has had the kinds added to its notice set, and nothing else of any lane has changed. -/
def Noticed (s t : State) (ks : List Notice) : Prop := ∀ m, t.lanes.get m = (s.lanes.get m).notifyAll ks

/-- A request answered (R178, R179): its frame is in the slot of its lane and its reply, of this status and body, is in progress
there; each lane has had kinds added to its notice set; nothing else of any lane has changed. -/
def AnsweredNoticing (s t : State) (i : Instr) (st : Status) (body : List Byte) (ks : Lane → List Notice) : Prop :=
  ∃ l f, requestFrame i = some (l, f) ∧
    ∀ m, t.lanes.get m =
      if m = l then
        { (s.lanes.get m).notifyAll (ks m) with slot := some f, reply := some (replyChars f.tag st body) }
      else (s.lanes.get m).notifyAll (ks m)

/-- A request answered, the same kinds added to the notice set of every lane. -/
def Answered (s t : State) (i : Instr) (st : Status) (body : List Byte) (ks : List Notice) : Prop :=
  AnsweredNoticing s t i st body fun _ => ks

/-- The request is a read at this state: it is answered, and nothing but its lane's slot and reply changes. -/
def OnlyReads (s : State) (i : Instr) : Prop :=
  ∃ t st body, exec i s = .next t ∧ Answered s t i st body [] ∧ t = { s with lanes := t.lanes }

/-- The request is refused with this status and body, and nothing but its lane's slot and reply changes. -/
def Refused (s : State) (i : Instr) (st : Status) (body : List Byte) : Prop :=
  ∃ t, exec i s = .next t ∧ Answered s t i st body [] ∧ t = { s with lanes := t.lanes }

/-- The request is served OK with this body, and nothing but its lane's slot and reply changes. -/
def ServedRead (s : State) (i : Instr) (body : List Byte) : Prop :=
  ∃ t, exec i s = .next t ∧ Answered s t i .ok body [] ∧ t = { s with lanes := t.lanes }

/-! ## Targets of level requests (R8, R10, R11) -/

/-- What a level request's target names: a POINT its point, a GROUP its members, and ALL every point where it is accepted. -/
def Names (st : Store) (acceptsAll : Bool) (g : Target) (ps : List Nat) : Prop :=
  (g.kind = 1 ∧ g.number < Config.points ∧ ps = [g.number]) ∨
    (g.kind = 2 ∧ ∃ r, st.group? g.number = some r ∧ ps = r.members) ∨
    (g.kind = 3 ∧ acceptsAll = true ∧ ps = List.range Config.points)

/-- A POINT above 1055, or a GROUP with no group of its id. -/
def NamesNothing (st : Store) (g : Target) : Prop :=
  (g.kind = 1 ∧ Config.points ≤ g.number) ∨ (g.kind = 2 ∧ st.group? g.number = none)

/-- The body of a served level request's reply: the clamped flag and the number of points written, and for a POINT target the
point's base, trim, effective level and membership as they stand afterwards. -/
def levelAnswer (t : State) (g : Target) (clamped : Bool) (count : Nat) : List Byte :=
  flag clamped :: be 2 count ++
    (if g.kind = 1 then
      signed (t.point g.number).base ++ signed (t.point g.number).trim
        ++ signed (effective (t.point g.number).base (t.point g.number).trim)
        ++ be 1 ((t.point g.number).membership.getD 255)
    else [])

/-! ## Ramps (R109, R110) -/

/-- A zone that a call begins to target: an ATTACK from the duck it holds toward its depth. -/
def Zone.attacked (depth : Int) (time : Nat) (z : Zone) : Zone :=
  if time = 0 then { z with targeted := true, duck := depth, ramp := none }
  else { z with targeted := true, ramp := some ⟨.attack, z.duck, depth, time, 0⟩ }

/-- A zone that a call ceases to target: a RELEASE from the duck it holds toward 0. -/
def Zone.released (time : Nat) (z : Zone) : Zone :=
  if time = 0 then { z with targeted := false, duck := 0, ramp := none }
  else { z with targeted := false, ramp := some ⟨.release, z.duck, 0, time, 0⟩ }

/-! ## Runs and calls -/

/-- What the cue runner holds of cue `c`'s run once its actions have been handed over, where `r` is the run as they left it with
no slot (R92, R93): a run with no follow has left the list, an AFTER_START or AFTER_END follow is TIMING with its delay, and a
BEATS follow still counts. Every other run and everything else of the runner but the trigger lines is as it was. -/
def RunDispatched (s t : State) (c : Nat) (r : Run) : Prop :=
  Noticed s t [.run] ∧ (∀ d, d ≠ c → t.run? d = s.run? d) ∧
    t.runner = { s.runner with runs := t.runner.runs, lines := t.runner.lines } ∧
    (r.follow = .none → r.followState = .none → t.run? c = none) ∧
    (∀ d, r.follow = .afterStart d ∨ r.follow = .afterEnd d →
      t.run? c = some { r with state := .active, preWait := 0, followState := .timing, followRemaining := d }) ∧
    (∀ n, r.follow = .beats n → r.followState = .counting →
      t.run? c = some { r with state := .active, preWait := 0 })

/-- The lowest-numbered zone of a set (R115). -/
def leastZone (z : ZoneSet) : Option Nat := (List.range Config.zones).find? fun k => z.getLsbD k

/-- The number of zones of a set (R115). -/
def zoneCount (z : ZoneSet) : Nat := ((List.range Config.zones).filter fun k => z.getLsbD k).length

/-- A call made live: its limit, its time live and its zones, each attacking from the duck it holds while the zones of the call
before it alone release; CALL_LIVE and nothing else is handed to `r`, the record as it then stands (R115). -/
def MadeLive (s t : State) (old : ZoneSet) (c : Call) (r : Record) : Prop :=
  t.calls.live = some ⟨c, s.store.showSetup.callLimit * 1000, 0⟩ ∧
    (∀ z, z < Config.zones → t.zone z =
      if c.zones.getLsbD z then (s.zone z).attacked (s.zoneSetup z).duckDepth s.store.showSetup.duckAttack
      else if old.getLsbD z then (s.zone z).released s.store.showSetup.duckRelease
      else s.zone z) ∧
    t.record = r.hand (.lane c.lane) none (leastZone c.zones) (.callLive c.cls (zoneCount c.zones) c.arrival)

/-- The record handed the CALL_END of a live call (R117). -/
def endedRecord (s : State) (x : LiveCall) (reason : EndReason) : Record :=
  s.record.hand (.lane x.call.lane) none (leastZone x.call.zones) (.callEnd reason x.call.arrival)

/-- The live call ended with nothing granted: its zones release and CALL_END is handed to the record (R117). -/
def EndedAlone (s t : State) (x : LiveCall) (reason : EndReason) : Prop :=
  t.calls.live = none ∧
    (∀ z, z < Config.zones → t.zone z =
      if x.call.zones.getLsbD z then (s.zone z).released s.store.showSetup.duckRelease else s.zone z) ∧
    t.record = endedRecord s x reason

/-- `b` is the call of the waiting list that is granted, `before` and `after` those around it: none is of a higher class, and
none of its class arrived earlier (R114). -/
def GrantedOf (waiting before : List Call) (b : Call) (after : List Call) : Prop :=
  waiting = before ++ b :: after ∧ (∀ d ∈ before, d.cls.rank < b.cls.rank) ∧ ∀ d ∈ after, d.cls.rank ≤ b.cls.rank

/-! ## Actions in range -/

/-- A target within R64's range. -/
def ActTarget.InRange : ActTarget → Prop
  | .point n => n < Config.points
  | .group g => g < Config.groups

/-- A trigger mode within R64's range. -/
def TriggerMode.InRange : TriggerMode → Prop
  | .pulse w => 1 ≤ w ∧ w ≤ 10000
  | .set => True
  | .clear => True
  | .repeating t n => 20 ≤ t ∧ t ≤ 10000 ∧ 1 ≤ n ∧ n ≤ 255

/-- A target's number within its characters. -/
def ActTarget.FitsItem : ActTarget → Prop
  | .point n => n < 65536
  | .group g => g < 65536

/-- A trigger mode's numbers within their characters. -/
def TriggerMode.FitsItem : TriggerMode → Prop
  | .pulse w => w < 65536
  | .set => True
  | .clear => True
  | .repeating t n => t < 65536 ∧ n < 256

/-- An action within R64's ranges. -/
def Action.InRange : Action → Prop
  | .level t v time _ _ => t.InRange ∧ Config.off ≤ v ∧ v ≤ Config.maxLevel ∧ time ≤ 600000
  | .route z m => z < Config.zones ∧ ∀ k, m = some k → k < Config.mixes
  | .mask m _ => m < Config.mixes
  | .trigger n mode => n < Config.lines ∧ mode.InRange
  | .halt t => t.InRange

/-- Every number of an action lies within its characters in the action item (10.7), in its range or not. -/
def Action.FitsItem : Action → Prop
  | .level t v time _ _ => t.FitsItem ∧ -32768 ≤ v ∧ v ≤ 32767 ∧ time < 16777216
  | .route z m => z < 256 ∧ ∀ k, m = some k → k < 255
  | .mask m _ => m < 256
  | .trigger n mode => n < 256 ∧ mode.FitsItem
  | .halt t => t.FitsItem

/-! ## Actions that are whole at once (R90) -/

/-- The points an action's target names when it is taken (R45): none for a kind without a target. -/
def Store.pointsNamed (st : Store) : Action → List Nat
  | .level t _ _ _ _ => st.resolve t
  | .halt t => st.resolve t
  | .route _ _ => []
  | .mask _ _ => []
  | .trigger _ _ => []

/-- An action that is whole when it is handed over: a ROUTE, a MASK, a TRIGGER, a LEVEL with fade time 0 or a HALT, in range and
with no point named in a slot. -/
def Action.AtOnce (s : State) (a : Action) : Prop :=
  (∀ p ∈ s.store.pointsNamed a, p < Config.points ∧ (s.point p).membership = none) ∧
    (match a with
     | .level _ v time _ _ => time = 0 ∧ Config.off ≤ v ∧ v ≤ Config.maxLevel
     | .route z _ => z < Config.zones
     | .mask m _ => m < Config.mixes
     | .trigger n _ => n < Config.lines
     | .halt _ => True)

/-- A zone's route after the actions of a list are handed over in order, where it was `m` (R107). -/
def routeAfter (z : Nat) (m : Option Nat) (acts : List Action) : Option Nat :=
  acts.foldl (fun m a =>
    match a with
    | .route k x => if k = z then x else m
    | .level _ _ _ _ _ => m
    | .mask _ _ => m
    | .trigger _ _ => m
    | .halt _ => m) m

/-- A mix's mask flag after the actions of a list are handed over in order, where it was `on` (R33). -/
def maskAfter (m : Nat) (on : Bool) (acts : List Action) : Bool :=
  acts.foldl (fun on a =>
    match a with
    | .mask k x => if k = m then x else on
    | .level _ _ _ _ _ => on
    | .route _ _ => on
    | .trigger _ _ => on
    | .halt _ => on) on

/-- A trigger line's state after the actions of a list are handed over in order, where it was `x` (R100, R101). -/
def lineAfter (n : Nat) (x : LineState) (acts : List Action) : LineState :=
  acts.foldl (fun x a =>
    match a with
    | .trigger k mode =>
      if k = n then
        (match mode with
         | .pulse w => .pulse w
         | .set => .active
         | .clear => .idle
         | .repeating t c => .repeating true (t / 2) c t)
      else x
    | .level _ _ _ _ _ => x
    | .route _ _ => x
    | .mask _ _ => x
    | .halt _ => x) x

/-- A point after the LEVEL actions with fade time 0 of a list are handed over in order, where it was `q` (R50). -/
def pointAfter (st : Store) (p : Nat) (q : Point) (acts : List Action) : Point :=
  acts.foldl (fun q a =>
    match a with
    | .level t v _ _ clear =>
      if p ∈ st.resolve t then { q with base := v, trim := if clear then 0 else q.trim } else q
    | .route _ _ => q
    | .mask _ _ => q
    | .trigger _ _ => q
    | .halt _ => q) q

/-! ## Commands in order -/

/-- The commands, taken one after another from `s`, each answering a next state, end at `t`. -/
def Takes : List Instr → State → State → Prop
  | [], s, t => s = t
  | i :: is, s, t => ∃ u, exec i s = .next u ∧ Takes is u t

/-- The runs of the cues listed take a counted beat, head first, from `s`, and leave `t` (R96): a COUNTING run with more than one
beat left has one fewer, one at its last beat has its follow expire as FOLLOW_EXPIRY gives, and any other is unchanged. `gone` are
the cues GOne at this beat, whose runs are not of it (notes/assumptions/9.md); an expiry GOes the next cue after its run's where
that is standby. -/
def BeatTakes : List Nat → List Nat → State → State → Prop
  | [], _, s, t => s = t
  | c :: cs, gone, s, t =>
    match s.run? c with
    | none => BeatTakes cs gone s t
    | some r =>
      if c ∈ gone ∨ r.followState ≠ .counting then BeatTakes cs gone s t
      else if 2 ≤ r.followRemaining then
        BeatTakes cs gone { s with runner := { s.runner with runs := s.runner.runs.map fun x =>
          if x.cue = c then { x with followRemaining := x.followRemaining - 1 } else x } } t
      else
        ∃ u, exec (.followExpiry c) s = .next u ∧
          BeatTakes cs ((if s.store.nextAfter c = s.runner.standby then s.runner.standby.toList else []) ++ gone) u t

/-! ## Freeing reports (R53, R54) -/

/-- A slot once points `ps` have left it: its other members, or FREE if none is left (R46, R51 to R53). -/
def FadeSlot.without (ps : List Nat) (f : FadeSlot) : Option FadeSlot :=
  if ∀ m ∈ f.members, m.point ∈ ps then none
  else some { f with members := f.members.filter fun m => decide (m.point ∉ ps) }

/-- The number of slots that points `ps` empty by leaving and whose owner is cue `c`: each sends one report (R53). -/
def State.emptiedOf (s : State) (ps : List Nat) (c : Nat) : Nat :=
  ((List.range Config.slots).filter fun k =>
    match s.slot k with
    | some f => decide (f.owner = some c ∧ ∀ m ∈ f.members, m.point ∈ ps)
    | none => false).length

/-- A run after `n` freeing reports: it owns `n` slots fewer, and at cue end an AFTER_END follow that waited begins TIMING with its
delay, and an ACTIVE run with follow state NONE has left the list (R91 to R93). -/
def Run.afterReports (n : Nat) (r : Run) : Option Run :=
  if n = 0 then some r
  else if n < r.slots then some { r with slots := r.slots - n }
  else if r.followState = .waitingEnd then
    some { r with slots := 0, followState := .timing, followRemaining :=
      match r.follow with
      | .none => 0
      | .afterStart d => d
      | .afterEnd d => d
      | .beats b => b }
  else if r.state = .active ∧ r.followState = .none then none
  else some { r with slots := 0 }

/-- The run list after the reports of the slots that points `ps` empty by leaving (R54). -/
def State.runsAfter (s : State) (ps : List Nat) : List Run :=
  s.runner.runs.filterMap fun r => r.afterReports (s.emptiedOf ps r.cue)

/-! ## What holds at all times -/

/-- The input map is a permutation of the 40 physical inputs (R24). -/
def MapOk (s : State) : Prop := s.inputMap.toList.Perm (List.range Config.sources)

/-- Every base and every trim lies in its range (R2). -/
def LevelsOk (s : State) : Prop :=
  ∀ p, Config.off ≤ (s.point p).base ∧ (s.point p).base ≤ Config.maxLevel ∧
    Config.minTrim ≤ (s.point p).trim ∧ (s.point p).trim ≤ Config.maxLevel

/-- The cue stack is in strictly ascending number order (R61), and standby is END or a cue of the stack (R72). -/
def StackOk (s : State) : Prop :=
  s.store.cues.Pairwise (fun c d => c.number < d.number) ∧
    ∀ c, s.runner.standby = some c → ∃ rec ∈ s.store.cues, rec.number = c

/-- The run list holds at most 16 runs, no cue twice (R89). -/
def RunsOk (s : State) : Prop :=
  (s.runner.runs.map (·.cue)).Nodup ∧ s.runner.runs.length ≤ Config.runLimit

/-- The lanes that have a call live or waiting, one for each call. -/
def Calls.lanes (q : Calls) : List Lane :=
  (match q.live with | some x => [x.call.lane] | none => []) ++ q.waiting.map (·.lane)

/-- The zone set of the live call, empty where none is live. -/
def Calls.liveZones (q : Calls) : ZoneSet :=
  match q.live with
  | some x => x.call.zones
  | none => 0

/-- No lane has two calls, nothing waits while no call is live, and a zone is targeted exactly when the live call's zone set
holds it (R112). -/
def CallsOk (s : State) : Prop :=
  s.calls.lanes.Nodup ∧ (s.calls.live = none → s.calls.waiting = []) ∧
    ∀ z, z < Config.zones → (s.zone z).targeted = s.calls.liveZones.getLsbD z

/-- The kept entries are the latest, in sequence order without a gap, up to written − 1; a HOLD log holds the first 2048 alone
(R155, R156). -/
def Record.LogOk (r : Record) : Prop :=
  r.log.length = min r.written Config.logSize ∧
    (∀ i e, r.log[i]? = some e → e.seq = r.written - r.log.length + i) ∧
    (r.logMode = some .hold → r.written ≤ Config.logSize) ∧ (r.state = .clear → r.written = 0)

/-- The six counters are at most 65,535 (R153). -/
def Counters.Ok (c : Counters) : Prop :=
  c.gos ≤ Config.max16 ∧ c.staleGos ≤ Config.max16 ∧ c.voidFollows ≤ Config.max16 ∧ c.snappedPoints ≤ Config.max16 ∧
    c.callsLive ≤ Config.max16 ∧ c.alarmsSet ≤ Config.max16

/-- The record's log is in order, and its counters, lost and the clock are within their widths (R146, R153, R156). -/
def RecordOk (s : State) : Prop :=
  s.record.LogOk ∧ s.record.counters.Ok ∧ s.record.lost ≤ Config.max16 ∧ s.record.clock ≤ Config.maxClock

/-- A lane's five counters are at most 255 (R177). -/
def LaneState.CountsOk (x : LaneState) : Prop :=
  x.framing ≤ 255 ∧ x.check ≤ 255 ∧ x.truncated ≤ 255 ∧ x.dropped ≤ 255 ∧ x.laneResets ≤ 255

/-- Every lane's counters are at most 255 (R177). -/
def LanesOk (s : State) : Prop := ∀ l, (s.lanes.get l).CountsOk

/-- A point's fade membership is the slot whose member list holds it, every slot in use has a member, and the members of all
slots do not exceed the pool (R39). -/
def FadesOk (s : State) : Prop :=
  (∀ p k, p < Config.points →
    ((s.point p).membership = some k ↔ ∃ f, s.slot k = some f ∧ ∃ m ∈ f.members, m.point = p)) ∧
  (∀ k f, s.slot k = some f → f.members ≠ []) ∧ s.poolUsed ≤ Config.memberPool

/-- A state in which everything the manual says holds at all times, of what this file states, holds. A safe run is one whose
every state is sound. -/
def Sound (s : State) : Prop :=
  MapOk s ∧ LevelsOk s ∧ StackOk s ∧ RunsOk s ∧ CallsOk s ∧ RecordOk s ∧ LanesOk s ∧ FadesOk s

end Sys2Proof.Machine
end

