-- ==== Sys2Proof/WellFormed.lean ====
section
/-! DEFINITION. Which commands can be sent: a request's fields hold values that its frame's characters can carry (R180), a
frame is no longer than its length character allows (R175), an event names a slot, line, zone or cue number that exists, and
the samples of a frame fill the slots of ports I0 and I1 (R21, R22). A command that is not well formed still has the meaning
its fields give; nothing outside can send it. -/

namespace Sys2Proof

/-- A value of one character. -/
def fits1 (n : Nat) : Bool := n < 256

/-- A value of two characters. -/
def fits2 (n : Nat) : Bool := n < 65536

/-- A value of three characters. -/
def fits3 (n : Nat) : Bool := n < 16777216

/-- A signed value of two characters. -/
def fitsSigned (x : Int) : Bool := -32768 ≤ x && x ≤ 32767

/-- A target's characters. -/
def Target.fits (t : Target) : Bool := fits1 t.kind && fits2 t.number

/-- A body is 0 to 250 characters (R175). -/
def Frame.fits (f : Frame) : Bool := f.body.length ≤ 250

/-- A cue number (R61). -/
def isCueNumber (n : Nat) : Bool := 1 ≤ n && n ≤ Config.maxCue

/-- A sample (R22). -/
def isSample (x : Int) : Bool := -8388608 ≤ x && x ≤ 8388607

/-- The samples of one input port's 24 slots (R21). -/
def isPort (xs : List Int) : Bool := xs.length == 24 && xs.all isSample

/-- A staging header's characters; the label and whatever follows an unknown kind leave room for the other fields. -/
def StageHeader.fits : StageHeader → Bool
  | .cue label preWait fk fv prompt curtain =>
    label.length ≤ 235 && fits3 preWait && fits1 fk && fits3 fv && fits1 prompt && fits1 curtain
  | .group label => label.length ≤ 244
  | .zoneSetup depth enable threshold hysteresis hold =>
    fitsSigned depth && fits1 enable && fitsSigned threshold && fitsSigned hysteresis && fits2 hold
  | .triggerSetup ps => ps.length == 16 && ps.all fits1
  | .showSetup mode limit attack release => fits1 mode && fits2 limit && fits3 attack && fits3 release
  | .removeCue => true
  | .removeGroup => true
  | .unknown kind rest => (kind.toNat == 0 || 8 ≤ kind.toNat) && rest.length ≤ 246

/-- A STAGE BEGIN's declared count; after an unknown kind no count can be told from the rest, and it is 0. -/
def StageHeader.fitsDeclared (h : StageHeader) (declared : Nat) : Bool :=
  match h with
  | .unknown _ _ => declared == 0
  | _ => fits1 declared

/-- The command can be sent. -/
def wellFormed : Instr → Bool
  | .powerOn => true
  | .resetPin => true
  | .goodFrame _ f => f.fits
  | .checkError _ f received => f.fits && received != frameCheck f
  | .framingError _ => true
  | .frameTruncated _ (.mark _) => true
  | .frameTruncated _ (.stray _) => true
  | .frameTruncated _ (.lengthOver n) => 250 < n.toNat
  | .frameGap _ => true
  | .replySent _ => true
  | .laneReset _ => true
  | .levelSet _ _ t v => t.fits && fitsSigned v
  | .trimNudge _ _ t v => t.fits && fitsSigned v
  | .trimSet _ _ t v => t.fits && fitsSigned v
  | .trimClear _ _ t => t.fits
  | .levelRead _ _ p n => fits2 p && fits1 n
  | .inputSwap _ _ x y => fits1 x && fits1 y
  | .inputRestore _ _ => true
  | .inputMapRead _ _ => true
  | .mixMask _ _ m v => fits1 m && fits1 v
  | .audioStatus _ _ => true
  | .fadeStatus _ _ k n => fits1 k && fits1 n
  | .cueList _ _ x n => fits3 x && fits1 n
  | .cueRead _ _ c x => fits3 c && fits1 x
  | .groupRead _ _ g => fits1 g
  | .groupList _ _ => true
  | .setupRead _ _ k z => fits1 k && fits1 z
  | .go _ _ none => true
  | .go _ _ (some c) => fits3 c
  | .preWaitEnd c => isCueNumber c
  | .fadeAdvance => true
  | .fadeCompletion k => k < Config.slots
  | .followExpiry c => isCueNumber c
  | .beat => true
  | .standbySet _ _ c => fits3 c
  | .panic _ _ => true
  | .runStatus _ _ x => fits1 x
  | .triggerStatus _ _ => true
  | .pulseEnd n => n < Config.lines
  | .repeatPhaseEnd n => n < Config.lines
  | .zoneRoute _ _ z m => fits1 z && fits1 m
  | .zoneStatus _ _ z n => fits1 z && fits1 n
  | .callOpen _ _ k _ v => fits1 k && fitsSigned v
  | .callClose _ _ => true
  | .callTimeout => true
  | .callStatus _ _ => true
  | .duckRampAdvance => true
  | .duckRampEnd z => z < Config.zones
  | .audioFrame i0 i1 => isPort i0 && isPort i1
  | .windowEnd => true
  | .clockLoss => true
  | .clockReturn => true
  | .audioRestored => true
  | .alarmPoll _ _ z => fits1 z
  | .alarmsAck _ _ _ => true
  | .arm _ _ m d => fits1 m && fits3 d
  | .delayExpiry => true
  | .intervalBegin _ _ => true
  | .intervalEnd _ _ => true
  | .finish _ _ => true
  | .recordClear _ _ => true
  | .recordStatus _ _ => true
  | .readLog _ _ k => k ≤ 4294967295
  | .stageBegin _ _ g h n => fits3 g && h.fits && h.fitsDeclared n
  | .stageAdd _ _ items => items.length ≤ 250
  | .stageVerify _ _ x => fits1 x
  | .stageCommit _ _ k g n e => fits1 k && fits3 g && fits1 n && fits2 e
  | .notices _ _ => true
  | .laneStatus _ _ x => fits1 x
  | .engineReset _ _ => true
  | .resetCauses _ _ => true
  | .causesClear _ _ => true
  | .identity _ _ => true
  | .lineReturnedHigh _ => true
  | .performanceClockMillisecond => true

end Sys2Proof
end

