-- ==== Sys2Proof/Certificates/Slice0/Obligations.lean ====
section
/-! DEFINITION. The statements for the provers: what the manual's rules say each command does, what reset leaves, and what every
step keeps. A statement that rests on a choice of the model names its log entry. -/

open Sys2Proof Sys2Proof.Machine

/-- A step runs the command at the front of the queue on the state with the queue's rest. For every command c, every list of
waiting commands rest and every state s, step of s with c :: rest waiting is exec of c on s with rest waiting. The queue is
the model's own (notes/assumptions/1.md, 23.md). (10.2 The request slot and the reply; notes/assumptions/1.md.) -/
def Obligations.StepRunsFrontCommand : Prop :=
  ∀ (c : Instr) (rest : List Instr) (s : State), step { s with pending := c :: rest } = exec c { s with pending := rest }

/-- With no command waiting a step is one millisecond of the internal time base. On an empty queue step answers a next state
(the model's choice in place of idling, notes/assumptions/1.md) in which: the time base has risen by 1; in RUNNING or
INTERVAL the performance clock has risen by 1, staying at 99,999,999; in CLEAR or FINISHED the whole record is unchanged; in
ARMED DELAY with more than 1 ms remaining the delay has fallen by 1; a live call with more than 1 ms of limit has its limit
lowered by 1 and its time live raised by 1, staying at 65,535,000 (the whole seconds that CALL STATUS gives stay at 65,535),
and the call queue is otherwise the same; what falls due is MillisecondTakesWhatFallsDue's; the length of a clock fault in
progress has risen by 1, staying at 65,535, and stands unchanged in GOOD; the input map, the store, the relay watch, the
staging buffers, the reset causes and the queue are unchanged. (Time in the engine; 8.3 The clock and the intervals; 6.4 The
call queue; 8.2 Arming and starting.) -/
def Obligations.IdleStepIsOneMillisecond : Prop :=
  ∀ s : State, s.pending = [] →
    ∃ t, step s = .next t ∧ t.timeBase = s.timeBase + 1 ∧
      (s.record.state = .running ∨ s.record.state = .interval → t.record.clock = min 99999999 (s.record.clock + 1)) ∧
      (s.record.state = .clear ∨ s.record.state = .finished → t.record = s.record) ∧
      (∀ d, s.record.state = .armed → s.record.startMode = some (.delay d) → 1 < s.record.delayRemaining →
        t.record = { s.record with delayRemaining := s.record.delayRemaining - 1 }) ∧
      (∀ x, s.calls.live = some x → 1 < x.limit →
        t.calls = { s.calls with
            live := some { x with limit := x.limit - 1, timeLive := min 65535000 (x.timeLive + 1) } }) ∧
      t.audio = { s.audio with
        faultMs := if s.audio.clock = .good then s.audio.faultMs else min 65535 (s.audio.faultMs + 1) } ∧
      t.inputMap = s.inputMap ∧ t.store = s.store ∧ t.watch = s.watch ∧ t.staging = s.staging ∧ t.causes = s.causes ∧
      t.pending = []

/-- A millisecond counts down every pre-wait, follow delay and limit, and takes what falls due in its order. On an empty queue,
in a state in which at most one follow delay falls due or standby is END, a step moves every count (a state u) and then
takes in order, as the commands for them: PRE_WAIT_END of each run in PRE_WAIT with 1 ms or less left, oldest first;
FOLLOW_EXPIRY of each TIMING follow with 1 ms or less left, oldest first; and CALL_TIMEOUT of a live call with 1 ms or less
of limit. In u the time base is one higher; every pre-wait of a run in PRE_WAIT and every TIMING follow's remaining time is
one lower, and from there the points, the slots and the runs are those that FADE_ADVANCE leaves (the runs otherwise as they
were while no fade completes); the zones are those that DUCK_RAMP_ADVANCE leaves; standby, the last GO and the beats are
kept; every line is one millisecond on; the live call's limit is one lower and its time live one higher; an arming delay of
1 ms or less has started the performance with lane ENGINE and PERFORMANCE is added to every lane, and a longer one is one
lower; the performance clock is one higher in RUNNING and INTERVAL, and the length of a clock fault in progress; store,
masks, map, watch, routes and targeted flags are kept. The tick on an empty queue and the order of blocks within it are the
model's choice (notes/assumptions/1.md). (5.4 Runs; 5.5 Follows; 5.8 Trigger lines; 6.4 The call queue; 8.2 Arming and
starting; notes/assumptions/1.md; 3.2 The fade law; 6.3 Ducks and ramps.) -/
def Obligations.MillisecondTakesWhatFallsDue : Prop :=
  ∀ s : State, s.pending = [] →
    let due := (s.runner.runs.filter fun r => decide (r.state = .preWait ∧ r.preWait ≤ 1)).map fun r => r.cue
    let late := (s.runner.runs.filter fun r => decide (r.followState = .timing ∧ r.followRemaining ≤ 1)).map fun r => r.cue
    let timeouts := match s.calls.live with
      | none => []
      | some x => if x.limit ≤ 1 then [Instr.callTimeout] else []
    let counted := s.runner.runs.map fun r => { r with
      preWait := if r.state = .preWait then r.preWait - 1 else r.preWait,
      followRemaining := if r.followState = .timing then r.followRemaining - 1 else r.followRemaining }
    let starts := s.record.state = .armed ∧ s.record.delayRemaining ≤ 1 ∧ ∃ d, s.record.startMode = some (.delay d)
    (late.length ≤ 1 ∨ s.runner.standby = none) →
    ∃ t u w, step s = .next t ∧ Takes (due.map Instr.preWaitEnd ++ late.map Instr.followExpiry ++ timeouts) u t ∧
      u.timeBase = s.timeBase + 1 ∧
      exec .fadeAdvance { s with runner := { s.runner with runs := counted } } = .next w ∧
      u.points = w.points ∧ u.slots = w.slots ∧ u.runner.runs = w.runner.runs ∧
      (starts → Noticed w u [.performance]) ∧ (¬ starts → u.lanes = w.lanes) ∧
      ((∀ k f, s.slot k = some f → f.elapsed + 1 < f.duration) → u.runner.runs = counted) ∧
      exec .duckRampAdvance s = .next { s with zones := u.zones } ∧
      u.runner = { s.runner with runs := u.runner.runs, lines := u.runner.lines } ∧ (∀ n, u.line n = (s.line n).tick) ∧
      u.calls = { s.calls with live := s.calls.live.map fun x =>
        { x with limit := x.limit - 1, timeLive := min 65535000 (x.timeLive + 1) } } ∧
      u.audio = { s.audio with
        faultMs := if s.audio.clock = .good then s.audio.faultMs else min 65535 (s.audio.faultMs + 1) } ∧
      (∀ d, s.record.state = .armed → s.record.startMode = some (.delay d) → s.record.delayRemaining ≤ 1 →
        u.record = { s.record with state := .running, clock := 0, delayRemaining := 0 }.hand .engine none none
          (.performanceStart (.delay d))) ∧
      (¬ starts → u.record =
        match s.record.state, s.record.startMode with
        | .running, _ => { s.record with clock := min 99999999 (s.record.clock + 1) }
        | .interval, _ => { s.record with clock := min 99999999 (s.record.clock + 1) }
        | .armed, some (.delay _) => { s.record with delayRemaining := s.record.delayRemaining - 1 }
        | _, _ => s.record) ∧
      (∀ z, (u.zone z).route = (s.zone z).route ∧ (u.zone z).targeted = (s.zone z).targeted) ∧
      u = { s with
        lanes := u.lanes, points := u.points, audio := u.audio, slots := u.slots, runner := u.runner, zones := u.zones,
        calls := u.calls, record := u.record, timeBase := u.timeBase }

/-- Reading the frame of a well-formed request gives the request back, and a frame read as a request is its frame. For every
well-formed command that is a request, the lane and frame that carry it (tag, code and body, each field encoded as 10.2
gives it) are read back as exactly that request, with every operand at every value its characters can carry. For every lane
and frame, if the frame's code and body read as a request on that lane, then the frame of that request is that frame: no
character of a body is dropped and no two frames of one lane read as the same request. The code of each of the 45 requests
is the one that 10.5's table gives it. (10.2 The request slot and the reply; 10.5 Requests.) -/
def Obligations.RequestsAndFramesReadBackEachWay : Prop :=
  (∀ (i : Instr) (l : Lane) (f : Frame), wellFormed i = true → requestFrame i = some (l, f) → parseRequest l f = some i) ∧
  (∀ (l : Lane) (f : Frame) (i : Instr), parseRequest l f = some i → requestFrame i = some (l, f)) ∧
  (∀ (i : Instr) (l : Lane) (f : Frame), requestFrame i = some (l, f) → f.code =
    match i with
    | .levelSet .. => 0x10 | .trimNudge .. => 0x11 | .trimSet .. => 0x12 | .trimClear .. => 0x13
    | .levelRead .. => 0x14 | .inputSwap .. => 0x18 | .inputRestore .. => 0x19 | .inputMapRead .. => 0x1A
    | .mixMask .. => 0x1B | .audioStatus .. => 0x1C | .fadeStatus .. => 0x20 | .cueList .. => 0x28
    | .cueRead .. => 0x29 | .groupRead .. => 0x2A | .groupList .. => 0x2B | .setupRead .. => 0x2C
    | .go .. => 0x30 | .standbySet .. => 0x31 | .panic .. => 0x32 | .runStatus .. => 0x33
    | .triggerStatus .. => 0x34 | .zoneRoute .. => 0x38 | .zoneStatus .. => 0x39 | .callOpen .. => 0x3A
    | .callClose .. => 0x3B | .callStatus .. => 0x3C | .alarmPoll .. => 0x40 | .alarmsAck .. => 0x41
    | .arm .. => 0x48 | .intervalBegin .. => 0x49 | .intervalEnd .. => 0x4A | .finish .. => 0x4B
    | .recordClear .. => 0x4C | .recordStatus .. => 0x4D | .readLog .. => 0x4E | .stageBegin .. => 0x50
    | .stageAdd .. => 0x51 | .stageVerify .. => 0x52 | .stageCommit .. => 0x53 | .notices .. => 0x58
    | .laneStatus .. => 0x59 | .engineReset .. => 0x60 | .resetCauses .. => 0x61 | .causesClear .. => 0x62
    | .identity .. => 0x63
    | _ => f.code)

/-- A character is 11 bits, and a frame's characters, received in order, come to that frame or to a check error. Every character
is sent as a start bit of 0, its eight data bits from the least significant, its mark bit and a stop bit of 1; those 11 bits
read back as that character and are received as it is, and with a stop bit of 0 as a framing error that abandons the frame
in assembly. A frame's characters are its tag with the mark bit, then length, code, body and the check's upper and lower
eight bits without it. For every frame with a body of at most 250 characters and every 16-bit value r, its characters with r
for its check leave nothing in assembly and come to the good frame if r is the frame's check, and to a check error of that
frame otherwise. A reply is sent so: bit j of its k-th character is on the line 11 × k + j bit times after it begins, and
the line is high after it and where there is none. The check of the characters 49 to 57 is 29B1 hexadecimal. (10.1
Characters and frames; 10.7 Layouts.) -/
def Obligations.FrameCharactersComeToTheirFrame : Prop :=
  (∀ c : Character,
    c.bits = [false, c.data.getLsbD 0, c.data.getLsbD 1, c.data.getLsbD 2, c.data.getLsbD 3, c.data.getLsbD 4,
      c.data.getLsbD 5, c.data.getLsbD 6, c.data.getLsbD 7, c.mark, true] ∧
    ∀ a, receiveBits a c.bits = receiveChar a c ∧ receiveBits a (c.bits.take 10 ++ [false]) = (none, .framingError)) ∧
  (∀ (f : Frame) (r : Check), f.fits = true →
    (∃ cs, charsWith f r = ⟨true, f.tag⟩ :: cs ∧ (∀ c ∈ cs, c.mark = false) ∧
      cs.map (fun c => c.data) = lengthChar f.body :: f.code :: f.body ++ be 2 r.toNat) ∧
    receiveChars none (charsWith f r) = (none, if r = frameCheck f then .good f else .checkError f r)) ∧
  (∀ x : LaneState,
    (∀ cs k j c, x.reply = some cs → cs[k]? = some c → j < 11 → x.transmits (11 * k + j) = c.bits.getD j true) ∧
    (∀ cs n, x.reply = some cs → 11 * cs.length ≤ n → x.transmits n = true) ∧
    (∀ n, x.reply = none → x.transmits n = true)) ∧
  crc [49, 50, 51, 52, 53, 54, 55, 56, 57] = 0x29B1#16

/-- GOOD_FRAME: dropped, refused by the lane, or handed to the owner, in R178's order. On a lane whose receive line is high, a
good frame is: discarded with the dropped counter raised if the slot is occupied, and nothing else changed but what was in
assembly; otherwise put in the slot, and answered UNKNOWN_REQUEST with an empty body if its code is none of the 45 request
codes of 10.5's table, else REFUSED_ROLE with an empty body if the lane is P and the code is one of the 16 that the table
gives to Lanes A and B alone, else MALFORMED with an empty body if its body does not read as the request, with nothing else
changed; otherwise it is taken exactly as the request it reads as, on the state with the frame in the slot. (R178; 10.5
Requests; 10.3 Roles.) -/
def Obligations.GoodFrameIsTakenInOrder : Prop :=
  ∀ (l : Lane) (f : Frame) (s : State), (s.lanes.get l).line = .high →
    let anyLane : List Nat :=
      [0x14, 0x1A, 0x1C, 0x20, 0x28, 0x29, 0x2A, 0x2B, 0x2C, 0x30, 0x32, 0x33, 0x34, 0x39, 0x3A, 0x3B, 0x3C, 0x40, 0x48, 0x49,
       0x4A, 0x4B, 0x4C, 0x4D, 0x4E, 0x58, 0x59, 0x61, 0x63]
    let fullLane : List Nat :=
      [0x10, 0x11, 0x12, 0x13, 0x18, 0x19, 0x1B, 0x31, 0x38, 0x41, 0x50, 0x51, 0x52, 0x53, 0x60, 0x62]
    let code := f.code.toNat
    let permitted := code ∈ anyLane ∨ (l ≠ .p ∧ code ∈ fullLane)
    (∀ g, (s.lanes.get l).slot = some g →
      exec (.goodFrame l f) s =
        .next (s.onLane l fun x => { x with assembly := none, dropped := min 255 (x.dropped + 1) })) ∧
    ((s.lanes.get l).slot = none →
      (code ∉ anyLane → code ∉ fullLane →
        exec (.goodFrame l f) s = .next (s.onLane l fun x =>
          { x with assembly := none, slot := some f, reply := some (replyChars f.tag .unknownRequest []) })) ∧
      (l = .p → code ∈ fullLane →
        exec (.goodFrame l f) s = .next (s.onLane l fun x =>
          { x with assembly := none, slot := some f, reply := some (replyChars f.tag .refusedRole []) })) ∧
      (permitted → parseRequest l f = none →
        exec (.goodFrame l f) s = .next (s.onLane l fun x =>
          { x with assembly := none, slot := some f, reply := some (replyChars f.tag .malformed []) })) ∧
      (∀ i, permitted → parseRequest l f = some i →
        exec (.goodFrame l f) s = exec i (s.onLane l fun x => { x with assembly := none, slot := some f })))

/-- The receiver's faults are counted, a line returns high, a reply ends, and LANE_RESET reaches its lane alone. On a lane whose
line is high: CHECK_ERROR raises the check counter, FRAME_TRUNCATED and FRAME_GAP the truncated counter, each staying at
255, and empty the assembly (a mark character that truncates begins a new frame with its tag); FRAMING_ERROR empties the
assembly and leaves the line low. LINE_RETURNED_HIGH makes a low line high and raises the framing counter, and makes a
broken line high without a count. REPLY_SENT empties the slot with its reply. Nothing else of the engine changes. A break
taken on a lane whose line is not already broken leaves that lane with nothing in assembly, an empty slot, no reply, an
empty notice set, its lane-reset counter raised by one (staying at 255), its other counters as they stood and its line
broken; its staging buffer is EMPTY; the other two lanes, the other lane's buffer and every other block are unchanged. (10.1
Characters and frames; 10.2 The request slot and the reply; 10.4 Lane reset; 9.5 Buffers over time.) -/
def Obligations.ReceiverFaultsAndLaneResets : Prop :=
  (∀ (l : Lane) (s : State),
    ((s.lanes.get l).line = .high →
      (∀ f r, exec (.checkError l f r) s =
        .next (s.onLane l fun x => { x with assembly := none, check := min 255 (x.check + 1) })) ∧
      (exec (.frameGap l) s =
        .next (s.onLane l fun x => { x with assembly := none, truncated := min 255 (x.truncated + 1) })) ∧
      (∀ tag, exec (.frameTruncated l (.mark tag)) s =
        .next (s.onLane l fun x => { x with assembly := some [tag], truncated := min 255 (x.truncated + 1) })) ∧
      (∀ c, exec (.frameTruncated l (.stray c)) s =
        .next (s.onLane l fun x => { x with assembly := none, truncated := min 255 (x.truncated + 1) })) ∧
      (∀ n, exec (.frameTruncated l (.lengthOver n)) s =
        .next (s.onLane l fun x => { x with assembly := none, truncated := min 255 (x.truncated + 1) })) ∧
      (exec (.framingError l) s = .next (s.onLane l fun x => { x with assembly := none, line := .low }))) ∧
    ((s.lanes.get l).line = .low →
      exec (.lineReturnedHigh l) s =
        .next (s.onLane l fun x => { x with line := .high, framing := min 255 (x.framing + 1) })) ∧
    ((s.lanes.get l).line = .broken →
      exec (.lineReturnedHigh l) s = .next (s.onLane l fun x => { x with line := .high })) ∧
    (∀ f cs, (s.lanes.get l).slot = some f → (s.lanes.get l).reply = some cs →
      exec (.replySent l) s = .next (s.onLane l fun x => { x with slot := none, reply := none }))) ∧
  (∀ (l : Lane) (s : State), (s.lanes.get l).line ≠ .broken →
    ∃ t, exec (.laneReset l) s = .next t ∧
      t.lanes.get l = { s.lanes.get l with
        line := .broken, assembly := none, slot := none, reply := none, notices := {},
        laneResets := min 255 ((s.lanes.get l).laneResets + 1) } ∧
      (∀ m, m ≠ l → t.lanes.get m = s.lanes.get m) ∧ t.buffer l = none ∧ (∀ m, m ≠ l → t.buffer m = s.buffer m) ∧
      t = { s with lanes := t.lanes, staging := t.staging })

/-- NOTICES: the reply carries the lane's set, STANDBY in bit 0 to RESET in bit 6, and the set empties. NOTICES on any lane is
answered OK with one character whose bits 0 to 6 say which of the seven kinds were in that lane's set and whose bit 7 is
clear; the set is then empty and the attention line inactive; the other lanes and every other block are unchanged. (10.6
Notices and the attention line.) -/
def Obligations.NoticesAreFetchedAndEmptied : Prop :=
  ∀ (l : Lane) (tag : Byte) (s : State),
    ∃ t c, exec (.notices l tag) s = .next t ∧
      t.lanes.get l = { s.lanes.get l with
        notices := {}, slot := some ⟨tag, 0x58, []⟩, reply := some (replyChars tag .ok [c]) } ∧
      (t.lanes.get l).attention = false ∧
      c.getLsbD 0 = (s.lanes.get l).notices.standby ∧ c.getLsbD 1 = (s.lanes.get l).notices.run ∧
      c.getLsbD 2 = (s.lanes.get l).notices.store ∧ c.getLsbD 3 = (s.lanes.get l).notices.call ∧
      c.getLsbD 4 = (s.lanes.get l).notices.alarm ∧ c.getLsbD 5 = (s.lanes.get l).notices.performance ∧
      c.getLsbD 6 = (s.lanes.get l).notices.reset ∧ c.getLsbD 7 = false ∧
      (∀ m, m ≠ l → t.lanes.get m = s.lanes.get m) ∧ t = { s with lanes := t.lanes }

/-- The twenty reads answer on every lane and change nothing but their lane's slot and reply. LEVEL READ, INPUT MAP READ, AUDIO
STATUS, FADE STATUS, CUE LIST, CUE READ, GROUP READ, GROUP LIST, SETUP READ, RUN STATUS, TRIGGER STATUS, ZONE STATUS, CALL
STATUS, ALARM POLL, RECORD STATUS, READ LOG, LANE STATUS, RESET CAUSES, IDENTITY and STAGE VERIFY, with any operands, on any
lane and in any state, are each answered with some status and body, and change nothing but the slot and the reply of the
lane they came on: no notice, no counter, no other lane and no other block. (4.9 Reading the store; 1.5 Reading levels; 3.6
Reading the fades; 5.9 Reading the runner; 6.6 Reading the relay; 7.8 Reading the alarms; 8.8 Reading the record; 10.8
Resets of the engine.) -/
def Obligations.ReadsChangeNothing : Prop :=
  ∀ (l : Lane) (tag : Byte) (a b : Nat) (s : State),
    OnlyReads s (.levelRead l tag a b) ∧
    OnlyReads s (.inputMapRead l tag) ∧
    OnlyReads s (.audioStatus l tag) ∧
    OnlyReads s (.fadeStatus l tag a b) ∧
    OnlyReads s (.cueList l tag a b) ∧
    OnlyReads s (.cueRead l tag a b) ∧
    OnlyReads s (.groupRead l tag a) ∧
    OnlyReads s (.groupList l tag) ∧
    OnlyReads s (.setupRead l tag a b) ∧
    OnlyReads s (.runStatus l tag a) ∧
    OnlyReads s (.triggerStatus l tag) ∧
    OnlyReads s (.zoneStatus l tag a b) ∧
    OnlyReads s (.callStatus l tag) ∧
    OnlyReads s (.alarmPoll l tag a) ∧
    OnlyReads s (.recordStatus l tag) ∧
    OnlyReads s (.readLog l tag a) ∧
    OnlyReads s (.laneStatus l tag a) ∧
    OnlyReads s (.resetCauses l tag) ∧
    OnlyReads s (.identity l tag) ∧
    OnlyReads s (.stageVerify l tag a)

/-- On Lane P the sixteen FULL-lane requests are refused REFUSED_ROLE and change nothing. LEVEL SET, TRIM NUDGE, TRIM SET, TRIM
CLEAR, INPUT SWAP, INPUT RESTORE, MIX MASK, STANDBY SET, ZONE ROUTE, ALARMS ACK, STAGE BEGIN, STAGE ADD, STAGE VERIFY, STAGE
COMMIT, ENGINE RESET and CAUSES CLEAR arriving on Lane P, with any operands and in any state, are each refused REFUSED_ROLE
with an empty body, and nothing but Lane P's slot and reply changes. (10.3 Roles.) -/
def Obligations.LanePIsRefusedFullLaneRequests : Prop :=
  ∀ (tag : Byte) (g : Target) (v : Int) (a b c d : Nat) (zs : ZoneSet) (h : StageHeader) (items : List Byte) (s : State),
    Refused s (.levelSet .p tag g v) .refusedRole [] ∧
    Refused s (.trimNudge .p tag g v) .refusedRole [] ∧
    Refused s (.trimSet .p tag g v) .refusedRole [] ∧
    Refused s (.trimClear .p tag g) .refusedRole [] ∧
    Refused s (.inputSwap .p tag a b) .refusedRole [] ∧
    Refused s (.inputRestore .p tag) .refusedRole [] ∧
    Refused s (.mixMask .p tag a b) .refusedRole [] ∧
    Refused s (.standbySet .p tag a) .refusedRole [] ∧
    Refused s (.zoneRoute .p tag a b) .refusedRole [] ∧
    Refused s (.alarmsAck .p tag zs) .refusedRole [] ∧
    Refused s (.stageBegin .p tag a h b) .refusedRole [] ∧
    Refused s (.stageAdd .p tag items) .refusedRole [] ∧
    Refused s (.stageVerify .p tag a) .refusedRole [] ∧
    Refused s (.stageCommit .p tag a b c d) .refusedRole [] ∧
    Refused s (.engineReset .p tag) .refusedRole [] ∧
    Refused s (.causesClear .p tag) .refusedRole []

/-- The effective level is base + trim clamped, or OFF; scale rounds x × G / 2²⁰ to nearest, halfway upward. For every base and
trim: the effective level is OFF (−900) if the base is OFF, and base + trim clamped to −900..+120 otherwise; it always lies
in −900..+120; and every point's effective level, as the gains, the reads and the replies use it, is that of its own base
and trim as they stand. For every integer x and gain G, scale x G is the floor of (x × G + 2¹⁹) / 2²⁰, which is the exact
rational product x × G / 2²⁰ plus one half, rounded down. Scaling by 1,048,576 is the identity, by 0 is 0, and the four
values the rule gives are those it gives. (R3; R7.) -/
def Obligations.EffectiveLevelAndScaleFollowTheirRules : Prop :=
  ((∀ b t : Int, (b ≤ -900 → effective b t = -900) ∧ (-900 < b → effective b t = max (-900) (min 120 (b + t))) ∧
    -900 ≤ effective b t ∧ effective b t ≤ 120) ∧
  ∀ (s : State) (p : Nat), (s.point p).effective = effective (s.point p).base (s.point p).trim ∧
    s.gainOf p = gain (effective (s.point p).base (s.point p).trim)) ∧
  (∀ (x : Int) (g : Nat), scale x g = ⌊((x * g + 2 ^ 19 : Int) : ℚ) / 2 ^ 20⌋ ∧
    scale x g = ⌊((x * g : Int) : ℚ) / 2 ^ 20 + 1 / 2⌋) ∧
  (∀ x : Int, scale x 1048576 = x ∧ scale x 0 = 0) ∧
  scale 1 524288 = 1 ∧ scale (-1) 524288 = 0 ∧ scale 1000000 269526 = 257040 ∧ scale (-1000000) 269526 = -257040

/-- The gain of a level E is 2²⁰ · 10^(E/200) to the nearest integer, and 0 for OFF. The gain of OFF is 0. For every level E in
−899..+120 the gain is 2²⁰ × 10^(E/200), a real number, plus one half, rounded down: the nearest integer, halfway upward. It
is 34 at −899 and 4,174,456 at +120, and a higher level never has a smaller gain. (R5.) -/
def Obligations.GainIsTheNearestInteger : Prop :=
  gain (-900) = 0 ∧
  (∀ e : Int, -899 ≤ e → e ≤ 120 → (gain e : Int) = ⌊(2 : ℝ) ^ 20 * (10 : ℝ) ^ ((e : ℝ) / 200) + 1 / 2⌋) ∧
  gain (-899) = 34 ∧ gain 120 = 4174456 ∧
  ∀ e e' : Int, -900 ≤ e → e ≤ e' → e' ≤ 120 → gain e ≤ gain e'

/-- LEVEL SET sets every named point's base, clamped, grabs it from its slot, and writes no other point. LEVEL SET on Lane A or
B. A POINT above 1055 or an absent GROUP is refused NOT_FOUND, and a kind other than POINT and GROUP MALFORMED, with nothing
changed. Otherwise it is served: each named point's base is the level clamped to −900..+120, its trim is kept and its
membership is none; every other point is unchanged; where memberships and slots agree each slot keeps just its members not
named, and is FREE if none is left; where no slot with an owner is so emptied, the cue runner and every notice set stand as
they were; where some are, each is reported to the run of its owner (a run list with no cue twice): the run owns as many
slots fewer, and where it owns none any more an AFTER_END follow that waited for cue end begins TIMING with its delay, and
an ACTIVE run with follow state NONE leaves the list and RUN is added to every lane; the reply is OK with the clamped flag,
the number of points, and for a POINT the point as it then stands; nothing else changes but the fade slots, the cue runner
(by reports of emptied slots) and, if a run so completes, the RUN notice of every lane. (1.4 Desk level requests; 1.3
Targets and groups; 3.4 Taking points out; 5.4 Runs; 5.5 Follows.) -/
def Obligations.LevelSetWritesBasesAndGrabs : Prop :=
  ∀ (l : Lane) (tag : Byte) (g : Target) (v : Int) (s : State), l ≠ .p →
    (NamesNothing s.store g → Refused s (.levelSet l tag g v) .notFound []) ∧
    (g.kind ≠ 1 → g.kind ≠ 2 → Refused s (.levelSet l tag g v) .malformed []) ∧
    ∀ ps, Names s.store false g ps →
      ∃ t ks, exec (.levelSet l tag g v) s = .next t ∧
        (∀ p, p < 1056 → t.point p =
          if p ∈ ps then { s.point p with base := max (-900) (min 120 v), membership := none } else s.point p) ∧
        (FadesOk s → (∀ p ∈ ps, p < 1056) →
          (∀ k, t.slot k = (s.slot k).bind fun f =>
            if ∀ m ∈ f.members, m.point ∈ ps then none
            else some { f with members := f.members.filter fun m => decide (m.point ∉ ps) }) ∧
          ((∀ c, s.emptiedOf ps c = 0) → t.runner = s.runner ∧ ks = []) ∧
          ((s.runner.runs.map (·.cue)).Nodup →
            t.runner = { s.runner with runs := s.runsAfter ps } ∧
              ks = if (s.runsAfter ps).length < s.runner.runs.length then [.run] else [])) ∧
        (ks = [] ∨ ks = [.run]) ∧
        Answered s t (.levelSet l tag g v) .ok (levelAnswer t g (decide (v < -900 ∨ 120 < v)) ps.length) ks ∧
        t = { s with lanes := t.lanes, points := t.points, slots := t.slots, runner := t.runner }

/-- TRIM NUDGE, TRIM SET and TRIM CLEAR write the trims of the named points, clamped, and nothing else. On Lane A or B, for a
target that names points none twice: TRIM NUDGE adds the delta, clamped to −1200..+1200, to each named point's trim and
clamps the sum to −600..+120, with the clamped flag set if a clamp changed a value; TRIM SET sets each trim to the value
clamped to −600..+120, with the flag set if the value was outside; TRIM CLEAR, which also takes ALL, sets each trim to 0
with the flag clear. Bases, memberships, every other point and every other block are unchanged, no notice is added, and the
reply is OK as R11 gives it. An absent target is refused NOT_FOUND by each, and a kind it does not take MALFORMED. That TRIM
CLEAR of ALL takes any number in the target is the model's reading (notes/assumptions/8.md). (1.4 Desk level requests; 1.3
Targets and groups; notes/assumptions/8.md.) -/
def Obligations.TrimRequestsWriteTrimsAlone : Prop :=
  ∀ (l : Lane) (tag : Byte) (g : Target) (v : Int) (s : State), l ≠ .p →
    (NamesNothing s.store g →
      Refused s (.trimNudge l tag g v) .notFound [] ∧ Refused s (.trimSet l tag g v) .notFound [] ∧
        Refused s (.trimClear l tag g) .notFound []) ∧
    (g.kind ≠ 1 → g.kind ≠ 2 →
      Refused s (.trimNudge l tag g v) .malformed [] ∧ Refused s (.trimSet l tag g v) .malformed [] ∧
        (g.kind ≠ 3 → Refused s (.trimClear l tag g) .malformed [])) ∧
    (∀ ps, Names s.store false g ps → ps.Nodup →
      (∃ t, exec (.trimNudge l tag g v) s = .next t ∧
        (∀ p, p < 1056 → t.point p =
          if p ∈ ps then
            { s.point p with trim := max (-600) (min 120 ((s.point p).trim + max (-1200) (min 1200 v))) }
          else s.point p) ∧
        Answered s t (.trimNudge l tag g v) .ok
          (levelAnswer t g (decide (v < -1200 ∨ 1200 < v ∨
            ∃ p ∈ ps, (s.point p).trim + max (-1200) (min 1200 v) < -600 ∨
              120 < (s.point p).trim + max (-1200) (min 1200 v))) ps.length) [] ∧
        t = { s with lanes := t.lanes, points := t.points }) ∧
      (∃ t, exec (.trimSet l tag g v) s = .next t ∧
        (∀ p, p < 1056 → t.point p =
          if p ∈ ps then { s.point p with trim := max (-600) (min 120 v) } else s.point p) ∧
        Answered s t (.trimSet l tag g v) .ok (levelAnswer t g (decide (v < -600 ∨ 120 < v)) ps.length) [] ∧
        t = { s with lanes := t.lanes, points := t.points })) ∧
    (∀ ps, Names s.store true g ps →
      ∃ t, exec (.trimClear l tag g) s = .next t ∧
        (∀ p, p < 1056 → t.point p = if p ∈ ps then { s.point p with trim := 0 } else s.point p) ∧
        Answered s t (.trimClear l tag g) .ok (levelAnswer t g false ps.length) [] ∧
        t = { s with lanes := t.lanes, points := t.points })

/-- LEVEL READ, FADE STATUS and AUDIO STATUS report the points, slots and audio state as they stand. LEVEL READ from a point
below 1056 with a count of 1 to 16 is OK with one entry for each point from the first on, ended at 1055: number, base, trim,
effective level, gain and membership; a first point above 1055 is NOT_FOUND, any other count OUT_OF_RANGE. FADE STATUS
likewise over slots 0 to 31 with a count of 1 to 8, after the free slots and free pool entries. AUDIO STATUS carries clock
state, good periods, fault count, fault time, the masked mixes and the changed sources. The list counts, and one character
for a source or an input, are the model's reading of the layout (notes/assumptions/7.md, 32.md). (1.5 Reading levels; 3.6
Reading the fades; 2.6 Reading the audio state; notes/assumptions/7.md; notes/assumptions/32.md.) -/
def Obligations.LevelFadeAndAudioReadsReportTheState : Prop :=
  ∀ (l : Lane) (tag : Byte) (first count : Nat) (s : State),
    (1056 ≤ first → Refused s (.levelRead l tag first count) .notFound []) ∧
    (first < 1056 → (count = 0 ∨ 16 < count) → Refused s (.levelRead l tag first count) .outOfRange []) ∧
    (first < 1056 → 1 ≤ count → count ≤ 16 →
      ServedRead s (.levelRead l tag first count)
        (be 1 (min count (1056 - first)) ++
          (List.range (min count (1056 - first))).flatMap fun j =>
            be 2 (first + j) ++ signed (s.point (first + j)).base ++ signed (s.point (first + j)).trim
              ++ signed (s.point (first + j)).effective ++ be 3 (gain (s.point (first + j)).effective)
              ++ be 1 ((s.point (first + j)).membership.getD 255))) ∧
    (32 ≤ first → Refused s (.fadeStatus l tag first count) .notFound []) ∧
    (first < 32 → (count = 0 ∨ 8 < count) → Refused s (.fadeStatus l tag first count) .outOfRange []) ∧
    (first < 32 → 1 ≤ count → count ≤ 8 →
      ServedRead s (.fadeStatus l tag first count)
        (be 1 s.freeSlots ++ be 2 s.poolFree ++ be 1 (min count (32 - first)) ++
          (List.range (min count (32 - first))).flatMap fun j =>
            match s.slot (first + j) with
            | none => be 1 (first + j) ++ be 1 1
            | some f =>
              be 1 (first + j) ++ be 1 2 ++ be 3 (f.owner.getD 0) ++ be 1 f.actionIndex ++ signed f.target
                ++ be 3 f.duration ++ be 1 f.curve.code ++ be 3 f.elapsed ++ be 1 f.members.length)) ∧
    ServedRead s (.audioStatus l tag)
      (be 1 s.audio.clock.code ++ be 1 s.audio.goodPeriods ++ be 2 s.audio.faultCount ++ be 3 s.audio.faultMs
        ++ (let ms := (List.range 24).filter fun m => s.masks.getD m false
            be 1 ms.length ++ ms.flatMap (be 1))
        ++ (let ks := (List.range 40).filter fun k => s.inputMap.getD k 0 != k
            be 1 ks.length ++ ks.flatMap fun k => be 1 k ++ be 1 (s.inputMap.getD k 0)))

/-- INPUT SWAP exchanges two entries of the input map, INPUT RESTORE gives the identity, INPUT MAP READ the 40 entries. On Lane
P it is refused REFUSED_ROLE; on Lane A or B a source above 39 is refused OUT_OF_RANGE, with nothing changed. Otherwise
map[first] and map[second] exchange their values and every other entry is kept; the reply is OK with both sources and the
inputs they then read; with two different sources an INPUT_SWAP event with the lane and those four numbers is handed to the
record, and with one source twice nothing is; nothing else changes and no notice is added. A second swap of the same pair
gives the first map back. INPUT RESTORE on Lane P is refused REFUSED_ROLE. On Lane A or B every entry then is its own source
number; with n the number of entries that differed, the reply is OK and carries n; for n above 0 one restore event with n is
handed to the record, and for n = 0 nothing is reported; nothing else changes. INPUT MAP READ is served on every lane: OK
with the 40 entries in source order, and nothing changes. One character for a source or an input is the model's choice
(notes/assumptions/32.md). (2.2 The input map; notes/assumptions/32.md.) -/
def Obligations.InputMapIsSwappedRestoredAndRead : Prop :=
  (∀ (l : Lane) (tag : Byte) (x y : Nat) (s : State),
    (l = .p → Refused s (.inputSwap l tag x y) .refusedRole []) ∧
    (l ≠ .p → (40 ≤ x ∨ 40 ≤ y) → Refused s (.inputSwap l tag x y) .outOfRange []) ∧
    (l ≠ .p → x < 40 → y < 40 →
      ∃ t, exec (.inputSwap l tag x y) s = .next t ∧
        (∀ k, k < 40 → t.inputMap.getD k 0 =
          if k = x then s.inputMap.getD y 0 else if k = y then s.inputMap.getD x 0 else s.inputMap.getD k 0) ∧
        t.record = (if x = y then s.record
          else s.record.hand (.lane l) none none (.inputSwap x (s.inputMap.getD y 0) y (s.inputMap.getD x 0))) ∧
        Answered s t (.inputSwap l tag x y) .ok
          (be 1 x ++ be 1 (s.inputMap.getD y 0) ++ be 1 y ++ be 1 (s.inputMap.getD x 0)) [] ∧
        t = { s with lanes := t.lanes, inputMap := t.inputMap, record := t.record } ∧
        ∀ tag' u, exec (.inputSwap l tag' x y) t = .next u → u.inputMap = s.inputMap)) ∧
  (∀ (l : Lane) (tag : Byte) (s : State),
    (l = .p → Refused s (.inputRestore l tag) .refusedRole []) ∧
    (l ≠ .p →
      ∃ t n, exec (.inputRestore l tag) s = .next t ∧
        n = ((List.range 40).filter fun k => s.inputMap.getD k 0 != k).length ∧
        (∀ k, k < 40 → t.inputMap.getD k 0 = k) ∧
        t.record = (if n = 0 then s.record else s.record.hand (.lane l) none none (.inputRestore n)) ∧
        Answered s t (.inputRestore l tag) .ok (be 1 n) [] ∧
        t = { s with lanes := t.lanes, inputMap := t.inputMap, record := t.record }) ∧
    ServedRead s (.inputMapRead l tag) ((List.range 40).flatMap fun k => be 1 (s.inputMap.getD k 0)))

/-- MIX MASK sets the mask flag of one mix. On Lane P it is refused REFUSED_ROLE. On Lane A or B a mix above 23 is refused
OUT_OF_RANGE before the state is looked at, and then a state other than ON and OFF is refused MALFORMED, with nothing
changed. Otherwise the mix's flag is the state given and every other flag is kept, even where it already held; the reply is
OK with the mix, the state before and the state after; nothing else changes. (R32.) -/
def Obligations.MixMaskSetsItsFlag : Prop :=
  ∀ (l : Lane) (tag : Byte) (m v : Nat) (s : State),
    (l = .p → Refused s (.mixMask l tag m v) .refusedRole []) ∧
    (l ≠ .p → 24 ≤ m → Refused s (.mixMask l tag m v) .outOfRange []) ∧
    (l ≠ .p → m < 24 → v ≠ 1 → v ≠ 2 → Refused s (.mixMask l tag m v) .malformed []) ∧
    (l ≠ .p → m < 24 → (v = 1 ∨ v = 2) →
      ∃ t, exec (.mixMask l tag m v) s = .next t ∧
        (∀ k, k < 24 → t.masks.getD k false = if k = m then decide (v = 1) else s.masks.getD k false) ∧
        Answered s t (.mixMask l tag m v) .ok (be 1 m ++ be 1 (if s.masks.getD m false then 1 else 2) ++ be 1 v) [] ∧
        t = { s with lanes := t.lanes, masks := t.masks })

/-- A mix slot is the scaled sum of its sends, limited, or 0 masked; a zone slot is its ducked mix plus the call, limited. For
every state, every pair of input frames and every mix m below 24: slot m of the frame computed is 0 if the mix is masked,
and otherwise the sum over the 40 sources of (the sample of the physical input the map gives the source, scaled by the
source point's gain and then by the gain of send m/s), scaled by the gain of master 1000 + m and limited to
−8,388,608..+8,388,607. For every state, every pair of input frames and every zone z below 32: slot z of the frame computed
is the relay term plus the call term, limited to 24 bits. The relay term is 0 with route NONE, and otherwise the routed
mix's signal, that limited sum whether or not the mix is masked, scaled by the gain of the zone level less the duck (OFF if
the zone level is OFF or the difference is at or below −900). The call term is the sample of slot 16 of port I1 scaled by
the gain of the live call's level if the zone is targeted, and 0 otherwise. (2.3 The mix computation; 2.4 Output masks; 6.2
The zone output.) -/
def Obligations.FrameSlotsAreTheMixAndZoneSums : Prop :=
  ∀ (s : State) (i0 i1 : List Int),
    let source : Nat → Int := fun k =>
      scale (if s.inputMap.getD k 0 < 24 then i0.getD (s.inputMap.getD k 0) 0 else i1.getD (s.inputMap.getD k 0 - 24) 0)
        (gain (s.point k).effective)
    let mix : Nat → Int := fun m => max (-8388608) (min 8388607
      (scale (∑ k ∈ Finset.range 40, scale (source k) (gain (s.point (40 + 40 * m + k)).effective))
        (gain (s.point (1000 + m)).effective)))
    (∀ m, m < 24 → (s.computeFrame i0 i1).mixes.getD m 0 = if s.masks.getD m false then 0 else mix m) ∧
    (∀ z, z < 32 →
      (s.computeFrame i0 i1).zones.getD z 0 =
        max (-8388608) (min 8388607
          ((match (s.zone z).route with
            | none => 0
            | some m =>
              scale (if m < 24 then mix m else 0)
                (if (s.point (1024 + z)).effective ≤ -900 then 0
                else if (s.point (1024 + z)).effective - (s.zone z).duck ≤ -900 then 0
                else gain ((s.point (1024 + z)).effective - (s.zone z).duck))) +
          (match (s.zone z).targeted, s.calls.live with
            | true, some x => scale (i1.getD 16 0) (gain x.call.level)
            | _, _ => 0))))

/-- AUDIO_FRAME: a frame is computed, the one of four periods before is sent, and RECOVERING sends 0. In ABSENT nothing is
computed and nothing changes. In GOOD or RECOVERING the frame computed from the samples joins the end of the frames in
delay; with four in delay the oldest leaves. In GOOD it is what is sent and the clock state stays; in RECOVERING 0 is sent
on every slot, and the good-period count rises by one, or at its 48th the state becomes GOOD with count 0. Only the audio
state, the relay watch, the record and the lanes may change. That the command computes, measures and counts in this order is
the model's choice (notes/assumptions/5.md, 6.md). (2.1 Ports and frames; 2.5 The audio clock; notes/assumptions/5.md.) -/
def Obligations.AudioFrameLeavesFourFramesLater : Prop :=
  ∀ (i0 i1 : List Int) (s : State),
    (s.audio.clock = .absent → exec (.audioFrame i0 i1) s = .next s) ∧
    (s.audio.clock = .good → s.audio.pipeline.length = 4 →
      ∃ t, exec (.audioFrame i0 i1) s = .next t ∧ t.audio.sent = s.audio.pipeline.head? ∧
        t.audio.pipeline = s.audio.pipeline.tail ++ [s.computeFrame i0 i1] ∧ t.audio.clock = .good ∧
        t = { s with audio := t.audio, watch := t.watch, record := t.record, lanes := t.lanes }) ∧
    (s.audio.clock = .recovering → s.audio.pipeline.length ≤ 4 →
      ∃ t, exec (.audioFrame i0 i1) s = .next t ∧
        t.audio.sent = some ⟨List.replicate 24 0, List.replicate 32 0⟩ ∧
        t.audio.pipeline = (s.audio.pipeline ++ [s.computeFrame i0 i1]).drop (s.audio.pipeline.length - 3) ∧
        (s.audio.goodPeriods < 47 → t.audio.clock = .recovering ∧ t.audio.goodPeriods = s.audio.goodPeriods + 1) ∧
        (47 ≤ s.audio.goodPeriods → t.audio.clock = .good ∧ t.audio.goodPeriods = 0) ∧
        t = { s with audio := t.audio, watch := t.watch, record := t.record, lanes := t.lanes })

/-- AUDIO_FRAME starts a window with the setups as they stand, measures every enabled zone, and ends the window it fills. With
the clock GOOD or RECOVERING. Before the first frame of a window each zone takes its setup record's fields: a zone enabled
before and after keeps its fields, any other begins anew, and the alarms of one just disabled are cleared, SILENT before
OVER, with cause DISABLED, handed to the record and ALARM added to every lane. Then in each enabled zone the peak is the
greater of itself and the magnitude of the value that leaves on its slot (0 in RECOVERING), the saturated count rises by one
if its sum was limited (never in RECOVERING), seen-unrouted is set if its route is NONE or its zone level OFF, and seen-
ducked if its duck is above 0 or it is targeted; a disabled zone is not measured; the frame count rises by one. The window
then ends as WINDOW_END ends it, which takes 4,800 frames, and in RECOVERING the good period is counted, the 48th as
AUDIO_RESTORED. That order and one command for all of it are the model's choice (notes/assumptions/5.md), as is the
ascending order of zones at a window start (notes/assumptions/33.md). (7.2 Windows; 7.6 Setup commits; 6.2 The zone output;
2.5 The audio clock; notes/assumptions/5.md; notes/assumptions/33.md.) -/
def Obligations.AudioFrameMeasuresEveryZone : Prop :=
  ∀ (i0 i1 : List Int) (s : State), s.audio.clock ≠ .absent →
    let source : Nat → Int := fun k =>
      scale (if s.inputMap.getD k 0 < 24 then i0.getD (s.inputMap.getD k 0) 0 else i1.getD (s.inputMap.getD k 0 - 24) 0)
        (gain (s.point k).effective)
    let mix : Nat → Int := fun m => max (-8388608) (min 8388607
      (scale (∑ k ∈ Finset.range 40, scale (source k) (gain (s.point (40 + 40 * m + k)).effective))
        (gain (s.point (1000 + m)).effective)))
    let start : Nat → WatchZone := fun z =>
      let w := s.watchZone z
      let x := s.zoneSetup z
      let setup : WatchSetup := ⟨x.watchEnable, x.threshold, x.hysteresis, x.hold⟩
      if s.watch.frames ≠ 0 then w
      else if w.setup.enable = true ∧ x.watchEnable = true then { w with setup := setup }
      else ⟨setup, 0, 0, false, false, false, false, 0, none⟩
    let cleared : Nat → List Detail := fun z =>
      let w := s.watchZone z
      if s.watch.frames = 0 ∧ w.setup.enable = true ∧ (s.zoneSetup z).watchEnable = false then
        (if w.silentAlarm then [.alarmClear false .disabled] else []) ++
          (if w.overAlarm then [.alarmClear true .disabled] else [])
      else []
    let sum : Nat → Int := fun z =>
      (match (s.zone z).route with
        | none => 0
        | some m =>
          scale (if m < 24 then mix m else 0)
            (if (s.point (1024 + z)).effective ≤ -900 then 0
            else if (s.point (1024 + z)).effective - (s.zone z).duck ≤ -900 then 0
            else gain ((s.point (1024 + z)).effective - (s.zone z).duck))) +
      (match (s.zone z).targeted, s.calls.live with
        | true, some x => scale (i1.getD 16 0) (gain x.call.level)
        | _, _ => 0)
    ∃ t u v, exec (.audioFrame i0 i1) s = .next t ∧
      u.watch.frames = s.watch.frames + 1 ∧ u.watch.faultSeen = s.watch.faultSeen ∧
      (∀ z, z < 32 → u.watchZone z =
        let w := start z
        let value := if s.audio.clock = .good then max (-8388608) (min 8388607 (sum z)) else 0
        if w.setup.enable then
          { w with
            peak := max w.peak value.natAbs,
            saturated := w.saturated +
              (if s.audio.clock = .good ∧ (sum z < -8388608 ∨ 8388607 < sum z) then 1 else 0),
            seenUnrouted := w.seenUnrouted ||
              decide ((s.zone z).route = none ∨ (s.point (1024 + z)).effective ≤ -900),
            seenDucked := w.seenDucked || decide (0 < (s.zone z).duck ∨ (s.zone z).targeted = true) }
        else w) ∧
      u.record = (List.range 32).foldl
        (fun r z => (cleared z).foldl (fun r d => r.hand .engine none (some z) d) r) s.record ∧
      Noticed s u (if (List.range 32).flatMap cleared = [] then [] else [.alarm]) ∧
      u.audio.clock = s.audio.clock ∧ u.audio.goodPeriods = s.audio.goodPeriods ∧
      u = { s with audio := u.audio, watch := u.watch, record := u.record, lanes := u.lanes } ∧
      exec .windowEnd u = .next v ∧
      (s.audio.clock = .good → t = v) ∧
      (s.audio.clock = .recovering → 48 ≤ s.audio.goodPeriods + 1 → exec .audioRestored v = .next t) ∧
      (s.audio.clock = .recovering → s.audio.goodPeriods + 1 < 48 →
        t = { v with audio := { v.audio with goodPeriods := v.audio.goodPeriods + 1 } })

/-- CLOCK_LOSS, CLOCK_RETURN and AUDIO_RESTORED. CLOCK_LOSS in GOOD: state ABSENT, the fault count raised by one (staying at
65,535), the fault length 0, frames not yet sent abandoned, the watch's fault-seen flag set, AUDIO_FAULT with the new count
handed to the record and ALARM added to every lane; in RECOVERING: back to ABSENT with count 0, nothing counted, reported or
noticed, and the frames in delay abandoned too (the model's reading, notes/assumptions/6.md). CLOCK_RETURN in ABSENT:
RECOVERING with count 0 and nothing else. AUDIO_RESTORED in RECOVERING: GOOD with count 0, AUDIO_RESTORED with the fault's
length handed to the record and ALARM added to every lane. Nothing else changes. (2.5 The audio clock; 7.7 Faults and
resets; notes/assumptions/6.md.) -/
def Obligations.AudioClockFaultBeginsAndClears : Prop :=
  ∀ s : State,
    (s.audio.clock = .good →
      ∃ t, exec .clockLoss s = .next t ∧
        t.audio = { s.audio with
          clock := .absent, goodPeriods := 0, faultCount := min 65535 (s.audio.faultCount + 1), faultMs := 0,
          pipeline := [], sent := none } ∧
        t.watch = { s.watch with faultSeen := true } ∧
        t.record = s.record.hand .engine none none (.audioFault (min 65535 (s.audio.faultCount + 1))) ∧
        Noticed s t [.alarm] ∧
        t = { s with audio := t.audio, watch := t.watch, record := t.record, lanes := t.lanes }) ∧
    (s.audio.clock = .recovering →
      exec .clockLoss s = .next { s with audio := { s.audio with
        clock := .absent, goodPeriods := 0, pipeline := [], sent := none } }) ∧
    (s.audio.clock = .absent →
      exec .clockReturn s = .next { s with audio := { s.audio with clock := .recovering, goodPeriods := 0 } }) ∧
    (s.audio.clock = .recovering →
      ∃ t, exec .audioRestored s = .next t ∧
        t.audio = { s.audio with clock := .good, goodPeriods := 0, faultMs := 0 } ∧
        t.record = s.record.hand .engine none none (.audioRestored s.audio.faultMs) ∧ Noticed s t [.alarm] ∧
        t = { s with audio := t.audio, record := t.record, lanes := t.lanes })

/-- A move's progress, its shape under each curve, and the base it gives, which never passes the target. For a duration D of at
least 1 and an elapsed time t, P is t × 65,536 / D rounded down and at most 65,536: 0 at 0 and 65,536 at D. P′ is P under
LINEAR, P² / 65,536 rounded down under LATE, and 65,536 less (65,536 − P)² / 65,536 rounded down under EARLY. Each curve
gives 0 at 0 and 65,536 at 65,536 and never falls as P rises. EARLY gives 65,536 once 65,536 − P is below 256, and LATE
gives 0 while P is below 256. For every start level, target and shaped progress P′ up to 65,536: the base is L0 plus (L1 −
L0) × P′ / 65,536 truncated toward zero; it is L1 at 65,536 and L0 where the two are equal; it lies between L0 and L1, at or
on the L0 side of the exact line; and as P′ rises it moves toward L1 alone. An advance writes every member's base so, from
the member's own start level (FadeAdvanceMovesEveryMember). (R42; R43.) -/
def Obligations.FadeLawShapesProgressAndStops : Prop :=
  (∀ t d : Nat, 1 ≤ d → progress t d = min 65536 (t * 65536 / d)) ∧
  (∀ d : Nat, 1 ≤ d → progress 0 d = 0 ∧ progress d d = 65536) ∧
  (∀ p : Nat, Curve.linear.shape p = p ∧ Curve.late.shape p = p * p / 65536 ∧
    Curve.early.shape p = 65536 - (65536 - p) * (65536 - p) / 65536) ∧
  (∀ c : Curve, c.shape 0 = 0 ∧ c.shape 65536 = 65536) ∧
  (∀ (c : Curve) (p q : Nat), p ≤ q → q ≤ 65536 → c.shape p ≤ c.shape q) ∧
  (∀ p : Nat, p ≤ 65536 → 65536 - p < 256 → Curve.early.shape p = 65536) ∧
  (∀ p : Nat, p < 256 → Curve.late.shape p = 0) ∧
  (∀ (l0 l1 : Int) (p q : Nat), p ≤ q → q ≤ 65536 →
    fadeBase l0 l1 p = l0 + Int.tdiv ((l1 - l0) * p) 65536 ∧ fadeBase l0 l1 65536 = l1 ∧ fadeBase l0 l0 p = l0 ∧
    (l0 ≤ l1 → l0 ≤ fadeBase l0 l1 p ∧ fadeBase l0 l1 p ≤ fadeBase l0 l1 q ∧ fadeBase l0 l1 q ≤ l1 ∧
      65536 * (fadeBase l0 l1 p - l0) ≤ (l1 - l0) * p) ∧
    (l1 ≤ l0 → l1 ≤ fadeBase l0 l1 q ∧ fadeBase l0 l1 q ≤ fadeBase l0 l1 p ∧ fadeBase l0 l1 p ≤ l0 ∧
      (l1 - l0) * p ≤ 65536 * (fadeBase l0 l1 p - l0)))

/-- FADE_ADVANCE: every slot in use advances by 1 ms, writes every member by the fade law, and completes at its duration. In
every state whose memberships and slots agree (FadesOk) and whose slots list no point twice: after FADE_ADVANCE each slot in
use that does not reach its duration has its elapsed time raised by 1 and each member's base computed from that member's own
start level, with trim and membership kept; each slot that reaches it is FREE with every member at the target and in no
slot; a FREE slot stays FREE; a point in no slot is unchanged; and nothing but points, slots, the cue runner and the lanes
changes. That one command advances every slot, in slot order, is the model's choice (notes/assumptions/4.md). (3.2 The fade
law; 3.1 Slots and the member pool; notes/assumptions/4.md.) -/
def Obligations.FadeAdvanceMovesEveryMember : Prop :=
  ∀ s : State, FadesOk s → (∀ k f, s.slot k = some f → (f.members.map (·.point)).Nodup) →
    ∃ t, exec .fadeAdvance s = .next t ∧
      (∀ k f, s.slot k = some f →
        (f.elapsed + 1 < f.duration →
          t.slot k = some { f with elapsed := f.elapsed + 1 } ∧
            ∀ m ∈ f.members, m.point < 1056 → t.point m.point = { s.point m.point with
              base := max (-900) (min 120
                (fadeBase m.start f.target (f.curve.shape (progress (f.elapsed + 1) f.duration)))) }) ∧
        (f.duration ≤ f.elapsed + 1 →
          t.slot k = none ∧
            ∀ m ∈ f.members, m.point < 1056 → t.point m.point = { s.point m.point with
              base := max (-900) (min 120 f.target), membership := none })) ∧
      (∀ k, s.slot k = none → t.slot k = none) ∧
      (∀ p, (s.point p).membership = none → t.point p = s.point p) ∧
      t = { s with lanes := t.lanes, points := t.points, slots := t.slots, runner := t.runner }

/-- FADE_COMPLETION: every member at the target, the slot FREE, and the owner's run told. For a slot in use: after its
completion the slot is FREE and every other slot unchanged; every member has the target as base, its trim kept, and
membership none; every other point is unchanged. With owner none nothing else changes. With an owner whose run owns more
than one slot, that run's slots owned falls by one. With a run that owned this one slot and was WAITING_END, its AFTER_END
follow begins TIMING with its delay. With an ACTIVE run that owned this one slot and has follow state NONE, the run leaves
the list and RUN is added to every lane. (3.2 The fade law; 3.4 Taking points out; 5.4 Runs; 5.5 Follows.) -/
def Obligations.FadeCompletionFreesAndReports : Prop :=
  ∀ (s : State) (k : Nat) (f : FadeSlot), s.slot k = some f →
    ∃ t, exec (.fadeCompletion k) s = .next t ∧ t.slot k = none ∧ (∀ j, j ≠ k → t.slot j = s.slot j) ∧
      (∀ p, p < 1056 → t.point p =
        if ∃ m ∈ f.members, m.point = p then
          { s.point p with base := max (-900) (min 120 f.target), membership := none }
        else s.point p) ∧
      t = { s with lanes := t.lanes, points := t.points, slots := t.slots, runner := t.runner } ∧
      (f.owner = none → t.runner = s.runner ∧ t.lanes = s.lanes) ∧
      (∀ c r, f.owner = some c → s.run? c = some r →
        (1 < r.slots → t.run? c = some { r with slots := r.slots - 1 } ∧ t.lanes = s.lanes) ∧
        (r.slots = 1 → r.followState = .waitingEnd →
          t.run? c = some { r with slots := 0, followState := .timing, followRemaining := r.follow.value }) ∧
        (r.slots = 1 → r.state = .active → r.followState = .none →
          t.runner = { s.runner with runs := s.runner.runs.filter fun x => x.cue != c } ∧ Noticed s t [.run]))

/-- The next cue after X is the least cue number of the stack above X, or END. In a cue stack in ascending number order, for
every number X whether or not the stack holds it: the next cue after X is n exactly when n is a cue of the stack above X and
every cue above X is at least n; it is END exactly when no cue of the stack is above X. A GO, a follow's expiry and a
removal of the standby cue ask this of the stack as it then stands. (R62.) -/
def Obligations.NextCueIsTheLeastAbove : Prop :=
  ∀ (st : Store) (x : Nat), st.cues.Pairwise (fun c d => c.number < d.number) →
    (∀ n, st.nextAfter x = some n ↔
      (∃ c ∈ st.cues, c.number = n ∧ x < n) ∧ ∀ c ∈ st.cues, x < c.number → n ≤ c.number) ∧
    (st.nextAfter x = none ↔ ∀ c ∈ st.cues, c.number ≤ x)

/-- CUE LIST, CUE READ, GROUP READ, GROUP LIST, SETUP READ and STAGE VERIFY report the records as they stand. With the stack in
number order: CUE LIST in range is OK with the number of cues, the free action entries, an entry for each of the first count
cues from the number on, and the more flag set exactly when there are further ones. CUE READ of a cue with a first action up
to 31 carries its fields and up to 12 action items with their indexes from there; an absent cue is NOT_FOUND. GROUP READ
carries the group's fields, reference count and members; GROUP LIST the number of groups, the free entries and each id with
its member count. SETUP READ carries each record's fields and edit count. STAGE VERIFY reports EMPTY, or the image where its
fields fit a body's 250 characters. List lengths are the model's reading of the layout (notes/assumptions/7.md, 32.md). (4.9
Reading the store; 9.2 Building an image; 10.2 The request slot and the reply; notes/assumptions/7.md;
notes/assumptions/32.md.) -/
def Obligations.StoreAndStagingReadsReportTheRecords : Prop :=
  ∀ (l : Lane) (tag : Byte) (s : State),
    (∀ x n, s.store.cues.Pairwise (fun c d => c.number < d.number) → x ≤ 9999999 → 1 ≤ n → n ≤ 16 →
      ServedRead s (.cueList l tag x n)
        (be 2 s.store.cues.length ++ be 2 (3072 - (s.store.cues.map fun c => c.actions.length).sum) ++
          (((s.store.cues.filter fun c => decide (x ≤ c.number)).take n).flatMap fun c =>
            be 3 c.number ++ be 2 c.editCount ++ be 1 c.actions.length ++ be 3 c.preWait ++ be 1 c.follow.kindCode
              ++ be 3 c.follow.value ++ [flag c.promptCallable, flag c.curtain]) ++
          [flag (decide (n < (s.store.cues.filter fun c => decide (x ≤ c.number)).length))])) ∧
    (∀ c x, s.store.cue? c = none → Refused s (.cueRead l tag c x) .notFound []) ∧
    (∀ c x rec, s.store.cue? c = some rec → x ≤ 31 →
      ServedRead s (.cueRead l tag c x)
        (be 3 rec.number ++ lengthChar rec.label :: rec.label ++ be 3 rec.preWait ++ be 1 rec.follow.kindCode
          ++ be 3 rec.follow.value ++ [flag rec.promptCallable, flag rec.curtain] ++ be 2 rec.editCount
          ++ be 1 rec.actions.length ++ (((rec.actions.drop x).take 12).zipIdx x).flatMap fun p => be 1 p.2 ++ p.1.chars)) ∧
    (∀ g, s.store.group? g = none → Refused s (.groupRead l tag g) .notFound []) ∧
    (∀ g rec, s.store.group? g = some rec →
      ServedRead s (.groupRead l tag g)
        (be 1 g ++ lengthChar rec.label :: rec.label ++ be 2 rec.editCount ++ be 2 (s.store.references g)
          ++ be 1 rec.members.length ++ rec.members.flatMap (be 2))) ∧
    (let ids := (List.range 64).filter fun g => (s.store.group? g).isSome
     let size := fun g => ((s.store.group? g).map fun r => r.members.length).getD 0
     ServedRead s (.groupList l tag)
       (be 1 ids.length ++ be 2 (1024 - (ids.map size).sum) ++ ids.flatMap fun g => be 1 g ++ be 1 (size g))) ∧
    (∀ z, z < 32 →
      ServedRead s (.setupRead l tag 1 z)
        (signed (s.zoneSetup z).duckDepth ++ flag (s.zoneSetup z).watchEnable :: signed (s.zoneSetup z).threshold
          ++ signed (s.zoneSetup z).hysteresis ++ be 2 (s.zoneSetup z).hold ++ be 2 (s.zoneSetup z).editCount)) ∧
    (∀ z, ServedRead s (.setupRead l tag 2 z)
      (((List.range 16).flatMap fun n => be 1 (s.store.triggerSetup.polarity.getD n .activeHigh).code)
        ++ be 2 s.store.triggerSetup.editCount)) ∧
    (∀ z, ServedRead s (.setupRead l tag 3 z)
      (be 1 s.store.showSetup.logMode.code ++ be 2 s.store.showSetup.callLimit ++ be 3 s.store.showSetup.duckAttack
        ++ be 3 s.store.showSetup.duckRelease ++ be 2 s.store.showSetup.editCount)) ∧
    (∀ x, l ≠ .p → s.buffer l = none → ServedRead s (.stageVerify l tag x) [1]) ∧
    (∀ x m, l ≠ .p → s.buffer l = some m → (m.header.kindCode = 1 → x ≤ 31) →
      let fields := be 1 (statusCode (some m)) ++ reasonByte m.status ++ indexBytes m.status ++ be 1 m.header.kindCode
        ++ be 3 m.target ++ headerBytes m.header ++ be 1 m.declared ++ be 1 (m.actions.length + m.members.length)
        ++ be 2 m.expected ++ flag m.committed :: m.itemBytes x
      fields.length ≤ 250 → ServedRead s (.stageVerify l tag x) fields)

/-- STAGE BEGIN replaces the lane's image, captures the edit count and checks the header. On Lane A or B, with a header whose
characters fit one of the seven kinds, STAGE BEGIN is served OK: the lane's buffer holds a new image of that header, target
and declared count, with no items, committed clear and the target record's edit count as it stands; its status is INVALID
with the first fault's reason and no index, else COMPLETE for a declared count of 0, else OPEN; the reply carries status,
reason and edit count; the other buffer and everything else are unchanged. That edit count is the target record's, 0 for an
absent record and for a target outside its range (for a trigger or show setup, any target but 0). For each of the seven
kinds the first fault of a header is RANGE where its target is out of range, then COUNT where its declared count is, then
LABEL where it has a label of more characters than its kind takes or with one outside codes 32 to 126, then RANGE where
another field is out of range, and there is none otherwise, the ranges being those of R60, R67 and R70. An unknown kind is
refused MALFORMED with nothing changed. (9.1 The staging buffers; 9.2 Building an image.) -/
def Obligations.StageBeginStartsAnImage : Prop :=
  (∀ (l : Lane) (tag : Byte) (g : Nat) (h : StageHeader) (n : Nat) (s : State), l ≠ .p →
    (headerFits h = false → Refused s (.stageBegin l tag g h n) .malformed []) ∧
    (headerFits h = true →
      ∃ t m, exec (.stageBegin l tag g h n) s = .next t ∧ t.buffer l = some m ∧
        m = { status := (match headerFault g h n with
                | some r => .invalid r none
                | none => if n = 0 then .complete else .opened),
              header := h, target := g, declared := n, actions := [], members := [],
              expected := s.store.editCountOf g h, committed := false } ∧
        (∀ k, k ≠ l → t.buffer k = s.buffer k) ∧
        Answered s t (.stageBegin l tag g h n) .ok
          (be 1 (statusCode (some m)) ++ reasonByte m.status ++ be 2 m.expected) [] ∧
        t = { s with lanes := t.lanes, staging := t.staging })) ∧
  (∀ k rest, headerFits (.unknown k rest) = false) ∧
  (∀ (st : Store) (g : Nat), st.editCountOf g .removeCue = st.cueEdit g ∧ st.editCountOf g .removeGroup = st.groupEdit g ∧
    (∀ label, st.editCountOf g (.group label) = st.groupEdit g) ∧
    (∀ label pw fk fv pc cu, st.editCountOf g (.cue label pw fk fv pc cu) = st.cueEdit g) ∧
    (∀ dd we th hy ho, st.editCountOf g (.zoneSetup dd we th hy ho) =
      if g < 32 then (st.zoneSetups.getD g {}).editCount else 0) ∧
    (∀ ps, st.editCountOf g (.triggerSetup ps) = if g = 0 then st.triggerSetup.editCount else 0) ∧
    (∀ mode lim att rel, st.editCountOf g (.showSetup mode lim att rel) = if g = 0 then st.showSetup.editCount else 0)) ∧
  (let faults : Nat → StageHeader → Nat → Prop → Prop → Prop → Prop → Prop := fun g h n target count label fields =>
     (¬ target → headerFault g h n = some .range) ∧ (target → ¬ count → headerFault g h n = some .count) ∧
       (target → count → ¬ label → headerFault g h n = some .label) ∧
       (target → count → label → ¬ fields → headerFault g h n = some .range) ∧
       (target → count → label → fields → headerFault g h n = none)
   let named : Nat → List Byte → Prop := fun k label => label.length ≤ k ∧ ∀ c ∈ label, 32 ≤ c.toNat ∧ c.toNat ≤ 126
   ∀ g n : Nat,
     (∀ label pw fk fv pc cu, faults g (.cue label pw fk fv pc cu) n (1 ≤ g ∧ g ≤ 9999999) (n ≤ 32) (named 24 label)
       (pw ≤ 600000 ∧ (fk = 1 ∧ fv = 0 ∨ fk = 2 ∧ fv ≤ 600000 ∨ fk = 3 ∧ fv ≤ 600000 ∨ fk = 4 ∧ 1 ≤ fv ∧ fv ≤ 255) ∧
         pc ≤ 1 ∧ cu ≤ 1)) ∧
     (∀ label, faults g (.group label) n (g < 64) (1 ≤ n ∧ n ≤ 64) (named 16 label) True) ∧
     (∀ dd we th hy ho, faults g (.zoneSetup dd we th hy ho) n (g < 32) (n = 0) True
       (0 ≤ dd ∧ dd ≤ 600 ∧ we ≤ 1 ∧ -800 ≤ th ∧ th ≤ -100 ∧ 0 ≤ hy ∧ hy ≤ 200 ∧ 1 ≤ ho ∧ ho ≤ 6000)) ∧
     (∀ ps, faults g (.triggerSetup ps) n (g = 0) (n = 0) True (∀ p ∈ ps, p = 1 ∨ p = 2)) ∧
     (∀ mode lim att rel, faults g (.showSetup mode lim att rel) n (g = 0) (n = 0) True
       ((mode = 1 ∨ mode = 2) ∧ 5 ≤ lim ∧ lim ≤ 600 ∧ att ≤ 2000 ∧ rel ≤ 5000)) ∧
     faults g .removeCue n (1 ≤ g ∧ g ≤ 9999999) (n = 0) True True ∧
     faults g .removeGroup n (g < 64) (n = 0) True True)

/-- STAGE ADD appends 1 to 12 good items, completes the image at the declared count, and stops at the first fault. On Lane A or
B. With no image, or one not OPEN, it is refused NOT_PERMITTED with nothing changed. To an OPEN GROUP image, 1 to 12 point
numbers in range, none twice and none already staged, that do not pass the declared count, are appended in order; to an OPEN
CUE image, 1 to 12 action items in range likewise. The status becomes COMPLETE if the declared count is then reached and
stays OPEN otherwise; the reply is OK with status, items staged, no reason and no index. An item at fault, after good ones
and whatever items follow it, makes the image INVALID with its reason and index: OVERFLOW beyond the declared count; else
for a GROUP RANGE above 1055 and DUPLICATE for a point already staged, and for a CUE KIND for a kind that is none of the
five and RANGE for an action with a number out of range. The good ones before it are appended, it and those after it are
not, and the reply is OK with INVALID, items staged, reason and index. A body that is not 1 to 12 whole items of the image's
kind is refused MALFORMED with nothing changed. Nothing but that buffer and the reply changes, and the other buffer never
does. One character for an item's index is the model's choice (notes/assumptions/32.md). (9.2 Building an image; 9.1 The
staging buffers; notes/assumptions/32.md.) -/
def Obligations.StageAddAppendsItems : Prop :=
  ∀ (l : Lane) (tag : Byte) (s : State), l ≠ .p →
    (∀ items, s.buffer l = none → Refused s (.stageAdd l tag items) .notPermitted []) ∧
    (∀ items m, s.buffer l = some m → m.status ≠ .opened → Refused s (.stageAdd l tag items) .notPermitted []) ∧
    (∀ m label ps, s.buffer l = some m → m.status = .opened → m.header = .group label → m.actions = [] →
      1 ≤ ps.length → ps.length ≤ 12 → (∀ p ∈ ps, p < 1056) → (m.members ++ ps).Nodup →
      m.members.length + ps.length ≤ m.declared →
      ∃ t m', exec (.stageAdd l tag (ps.flatMap (be 2))) s = .next t ∧
        m' = { m with members := m.members ++ ps,
                      status := if m.members.length + ps.length = m.declared then .complete else .opened } ∧
        t.buffer l = some m' ∧ (∀ k, k ≠ l → t.buffer k = s.buffer k) ∧
        Answered s t (.stageAdd l tag (ps.flatMap (be 2))) .ok
          (be 1 (statusCode (some m')) ++ be 1 (m.members.length + ps.length) ++ [0, 0, 0]) [] ∧
        t = { s with lanes := t.lanes, staging := t.staging }) ∧
    (∀ m label pw fk fv pc cu acts, s.buffer l = some m → m.status = .opened →
      m.header = .cue label pw fk fv pc cu → m.members = [] →
      1 ≤ acts.length → acts.length ≤ 12 → (∀ a ∈ acts, Action.InRange a) →
      m.actions.length + acts.length ≤ m.declared →
      ∃ t m', exec (.stageAdd l tag (acts.flatMap Action.chars)) s = .next t ∧
        m' = { m with actions := m.actions ++ acts,
                      status := if m.actions.length + acts.length = m.declared then .complete else .opened } ∧
        t.buffer l = some m' ∧ (∀ k, k ≠ l → t.buffer k = s.buffer k) ∧
        Answered s t (.stageAdd l tag (acts.flatMap Action.chars)) .ok
          (be 1 (statusCode (some m')) ++ be 1 (m.actions.length + acts.length) ++ [0, 0, 0]) [] ∧
        t = { s with lanes := t.lanes, staging := t.staging }) ∧
    (∀ m label ps p rest r, s.buffer l = some m → m.status = .opened → m.header = .group label → m.actions = [] →
      (ps ++ p :: rest).length ≤ 12 → (∀ q ∈ ps, q < 1056) → (m.members ++ ps).Nodup →
      m.members.length + ps.length ≤ m.declared → p < 65536 →
      (if m.members.length + ps.length = m.declared then r = .overflow
        else if 1056 ≤ p then r = .range else p ∈ m.members ++ ps ∧ r = .duplicate) →
      ∃ t, exec (.stageAdd l tag ((ps ++ p :: rest).flatMap (be 2))) s = .next t ∧
        t.buffer l = some { m with
          members := m.members ++ ps, status := .invalid r (some (m.members.length + ps.length)) } ∧
        (∀ k, k ≠ l → t.buffer k = s.buffer k) ∧
        Answered s t (.stageAdd l tag ((ps ++ p :: rest).flatMap (be 2))) .ok
          (be 1 4 ++ be 1 (m.members.length + ps.length) ++ be 1 r.code ++ 1 :: be 1 (m.members.length + ps.length)) [] ∧
        t = { s with lanes := t.lanes, staging := t.staging }) ∧
    (∀ m label pw fk fv pc cu acts item rest r, s.buffer l = some m → m.status = .opened →
      m.header = .cue label pw fk fv pc cu → m.members = [] → item.length = 12 → rest.length % 12 = 0 →
      12 * acts.length + 12 + rest.length ≤ 144 → (∀ a ∈ acts, Action.InRange a) →
      m.actions.length + acts.length ≤ m.declared →
      (if m.actions.length + acts.length = m.declared then r = .overflow
        else (item.headD 0 ∉ [1, 2, 3, 4, 5] ∧ r = .kind) ∨
          ((∃ a : Action, ¬ a.InRange ∧ a.FitsItem ∧ item = a.chars) ∧ r = .range)) →
      ∃ t, exec (.stageAdd l tag (acts.flatMap Action.chars ++ item ++ rest)) s = .next t ∧
        t.buffer l = some { m with
          actions := m.actions ++ acts, status := .invalid r (some (m.actions.length + acts.length)) } ∧
        (∀ k, k ≠ l → t.buffer k = s.buffer k) ∧
        Answered s t (.stageAdd l tag (acts.flatMap Action.chars ++ item ++ rest)) .ok
          (be 1 4 ++ be 1 (m.actions.length + acts.length) ++ be 1 r.code ++ 1 :: be 1 (m.actions.length + acts.length)) [] ∧
        t = { s with lanes := t.lanes, staging := t.staging }) ∧
    (∀ m items, s.buffer l = some m → m.status = .opened →
      (m.header.kindCode = 1 ∧ (items.length % 12 ≠ 0 ∨ items.length = 0 ∨ 144 < items.length) ∨
        m.header.kindCode = 2 ∧ (items.length % 2 ≠ 0 ∨ items.length = 0 ∨ 24 < items.length)) →
      (∀ k rest, m.header ≠ .unknown k rest) →
      Refused s (.stageAdd l tag items) .malformed [])

/-- STAGE COMMIT is refused by its first failing check, and a refused commit changes nothing. On Lane A or B. With an EMPTY
buffer, or an image not COMPLETE, the commit is refused NOT_COMPLETE with the status; a COMPLETE image whose echo differs,
MISMATCH; then RUNNING or INTERVAL, LOCKED with the state; then a CUE or REMOVE CUE whose target has a run, BUSY with the
cue; then an edit count that has moved, CHANGED with the current count; then a REMOVE CUE of an absent cue or a REMOVE GROUP
of an absent group, NOT_FOUND with that number, and a CUE of which an action names an absent group, NOT_FOUND with the first
such group and the index of its action; then a CUE that adds a cue to 400, FULL with the cue limit, one whose actions do not
fit the free entries and those it replaces, FULL with the action pool, and a GROUP whose members do not fit likewise, FULL
with the member pool; then a REMOVE GROUP of a group that cues name, IN_USE with the reference count. In each case nothing
but the lane's slot and reply changes. The layout of the NOT_FOUND reply is the model's reading (notes/assumptions/7.md,
32.md). (9.3 The commit; notes/assumptions/7.md; notes/assumptions/32.md.) -/
def Obligations.StageCommitChecksInOrder : Prop :=
  ∀ (l : Lane) (tag : Byte) (k g n e : Nat) (s : State), l ≠ .p →
    (s.buffer l = none → Refused s (.stageCommit l tag k g n e) .notComplete [1]) ∧
    ∀ m, s.buffer l = some m →
      (m.status ≠ .complete → Refused s (.stageCommit l tag k g n e) .notComplete (be 1 (statusCode (some m)))) ∧
      (m.status = .complete → ¬ (k = m.header.kindCode ∧ g = m.target ∧ n = m.declared ∧ e = m.expected) →
        Refused s (.stageCommit l tag k g n e) .mismatch []) ∧
      (m.status = .complete → k = m.header.kindCode → g = m.target → n = m.declared → e = m.expected →
        ((s.record.state = .running ∨ s.record.state = .interval) →
          Refused s (.stageCommit l tag k g n e) .locked (be 1 s.record.state.code)) ∧
        (s.record.state ≠ .running → s.record.state ≠ .interval →
          ((k = 1 ∨ k = 6) → (s.run? g).isSome → Refused s (.stageCommit l tag k g n e) .busy (be 3 g)) ∧
          ((k = 1 ∨ k = 6 → s.run? g = none) →
            (s.store.editCountOf g m.header ≠ e →
              Refused s (.stageCommit l tag k g n e) .changed (be 2 (s.store.editCountOf g m.header))) ∧
            (s.store.editCountOf g m.header = e →
              (m.header = .removeCue → s.store.cue? g = none →
                Refused s (.stageCommit l tag k g n e) .notFound (be 3 g ++ [0, 0])) ∧
              (m.header = .removeGroup → s.store.group? g = none →
                Refused s (.stageCommit l tag k g n e) .notFound (be 3 g ++ [0, 0])) ∧
              (∀ label pw fk fv pc cu, m.header = .cue label pw fk fv pc cu →
                (∀ x a y, m.actions[x]? = some a → a.groupNamed = some y → s.store.group? y = none →
                  (∀ b ∈ m.actions.take x, ∀ z, b.groupNamed = some z → (s.store.group? z).isSome) →
                  Refused s (.stageCommit l tag k g n e) .notFound (be 3 y ++ 1 :: be 1 x)) ∧
                ((∀ b ∈ m.actions, ∀ z, b.groupNamed = some z → (s.store.group? z).isSome) →
                  (s.store.cue? g = none → 400 ≤ s.store.cues.length →
                    Refused s (.stageCommit l tag k g n e) .full [1]) ∧
                  (((s.store.cue? g).isSome ∨ s.store.cues.length < 400) →
                    s.store.freeActions + ((s.store.cue? g).map fun c => c.actions.length).getD 0 < n →
                    Refused s (.stageCommit l tag k g n e) .full [2]))) ∧
              (∀ label, m.header = .group label →
                s.store.freeMembers + ((s.store.group? g).map fun r => r.members.length).getD 0 < n →
                Refused s (.stageCommit l tag k g n e) .full [3]) ∧
              (m.header = .removeGroup → (s.store.group? g).isSome → 0 < s.store.references g →
                Refused s (.stageCommit l tag k g n e) .inUse (be 2 (s.store.references g)))))))

/-- A taken STAGE COMMIT of a CUE or REMOVE CUE image adds, replaces or removes that cue and moves standby as R73 and R74 give.
On Lane A or B, with a COMPLETE image echoed exactly, no performance running, no run of the cue and the edit count unmoved.
A CUE image whose groups exist and whose cue and actions fit is committed: the stack holds the cue with the image's fields
and actions and its edit count raised (65,535 wraps to 1); every other cue is kept; standby is the cue if the stack was
empty and is kept otherwise. A REMOVE CUE image of a present cue removes it alone; standby, if it was that cue, is the next
after it. The committed flag is set, STORE is added to the other two lanes and STANDBY to every lane where standby changed,
and the reply is OK with kind, target, new edit count, standby and the store's counts. The rest of the store and engine is
unchanged. (9.4 What a commit does; 4.8 Standby and the stack; 4.5 Edit counts.) -/
def Obligations.StageCommitChangesItsRecord : Prop :=
  ∀ (l : Lane) (tag : Byte) (s : State) (m : Image), l ≠ .p → s.buffer l = some m → m.status = .complete →
    s.record.state ≠ .running → s.record.state ≠ .interval → s.run? m.target = none →
    s.store.cueEdit m.target = m.expected →
    (∀ label pw fk fv pc cu, m.header = .cue label pw fk fv pc cu →
      (∀ a ∈ m.actions, ∀ g, a.groupNamed = some g → (s.store.group? g).isSome) →
      ((s.store.cue? m.target).isSome ∨ s.store.cues.length < 400) →
      m.declared ≤ s.store.freeActions + ((s.store.cue? m.target).map fun c => c.actions.length).getD 0 →
      ∃ t, exec (.stageCommit l tag 1 m.target m.declared m.expected) s = .next t ∧
        t.store.cue? m.target = some
          { number := m.target, label := label, preWait := pw, follow := (readFollow fk fv).getD .none,
            promptCallable := decide (pc = 1), curtain := decide (cu = 1), actions := m.actions,
            editCount := if m.expected = 65535 then 1 else m.expected + 1 } ∧
        (∀ n, n ≠ m.target → t.store.cue? n = s.store.cue? n) ∧ t.store = { s.store with cues := t.store.cues } ∧
        t.runner = { s.runner with
          standby := if s.store.cues = [] then some m.target else s.runner.standby } ∧
        t.buffer l = some { m with committed := true } ∧ (∀ k, k ≠ l → t.buffer k = s.buffer k) ∧
        AnsweredNoticing s t (.stageCommit l tag 1 m.target m.declared m.expected) .ok
          (be 1 1 ++ be 3 m.target ++ be 2 (t.store.cueEdit m.target) ++ be 3 (t.runner.standby.getD 0)
            ++ be 2 t.store.cues.length ++ be 2 t.store.freeActions ++ be 1 t.store.presentGroups.length
            ++ be 2 t.store.freeMembers)
          (fun k => (if s.store.cues = [] ∧ s.runner.standby ≠ some m.target then [Notice.standby] else []) ++
            if k = l then [] else [Notice.store]) ∧
        t = { s with lanes := t.lanes, store := t.store, runner := t.runner, staging := t.staging }) ∧
    (m.header = .removeCue → (s.store.cue? m.target).isSome →
      ∃ t, exec (.stageCommit l tag 6 m.target m.declared m.expected) s = .next t ∧
        t.store.cue? m.target = none ∧ (∀ n, n ≠ m.target → t.store.cue? n = s.store.cue? n) ∧
        t.store = { s.store with cues := t.store.cues } ∧
        t.runner = { s.runner with
          standby := if s.runner.standby = some m.target then t.store.nextAfter m.target else s.runner.standby } ∧
        t.buffer l = some { m with committed := true } ∧ (∀ k, k ≠ l → t.buffer k = s.buffer k) ∧
        AnsweredNoticing s t (.stageCommit l tag 6 m.target m.declared m.expected) .ok
          (be 1 6 ++ be 3 m.target ++ be 2 0 ++ be 3 (t.runner.standby.getD 0)
            ++ be 2 t.store.cues.length ++ be 2 t.store.freeActions ++ be 1 t.store.presentGroups.length
            ++ be 2 t.store.freeMembers)
          (fun k => (if s.runner.standby = some m.target then [Notice.standby] else []) ++
            if k = l then [] else [Notice.store]) ∧
        t = { s with lanes := t.lanes, store := t.store, runner := t.runner, staging := t.staging })

/-- A taken STAGE COMMIT of a GROUP, REMOVE GROUP, ZONE, TRIGGER or SHOW SETUP changes that record, and a depth its duck. On
Lane A or B, with a COMPLETE image echoed exactly, no performance running and the edit count unmoved. A GROUP image that
fits the member pool leaves the group with the image's label and members and its edit count raised (65,535 wraps to 1); a
REMOVE GROUP image of a group no cue names leaves it absent; each other group is kept. A setup image replaces its record
whole with its edit count raised and each other record is kept. A ZONE SETUP that changes the depth reaches its zone as R111
gives: a duck above the depth falls to it; an ATTACK begins again toward the depth; a RELEASE whose duck fell begins again
toward 0; with no ramp, a targeted zone whose duck is below the depth begins an ATTACK; with an unchanged depth, and in
every other zone, nothing changes. The committed flag is set, STORE is added to the other two lanes, and the reply is OK
with kind, target, new edit count, standby and the store's counts. Nothing else changes. (9.4 What a commit does; 4.4 The
group table; 4.5 Edit counts; 4.6 The setup records; 6.3 Ducks and ramps.) -/
def Obligations.StageCommitChangesGroupsAndSetups : Prop :=
  ∀ (l : Lane) (tag : Byte) (s : State) (m : Image), l ≠ .p → s.buffer l = some m → m.status = .complete →
    s.record.state ≠ .running → s.record.state ≠ .interval →
    let raised := if m.expected = 65535 then 1 else m.expected + 1
    let taken : State → Nat → Nat → Prop := fun t k edit =>
      t.buffer l = some { m with committed := true } ∧ (∀ j, j ≠ l → t.buffer j = s.buffer j) ∧
        AnsweredNoticing s t (.stageCommit l tag k m.target m.declared m.expected) .ok
          (be 1 k ++ be 3 m.target ++ be 2 edit ++ be 3 (s.runner.standby.getD 0) ++ be 2 t.store.cues.length
            ++ be 2 t.store.freeActions ++ be 1 t.store.presentGroups.length ++ be 2 t.store.freeMembers)
          fun j => if j = l then [] else [.store]
    (∀ label, m.header = .group label → m.target < 64 → s.store.groupEdit m.target = m.expected →
      m.declared ≤ s.store.freeMembers + ((s.store.group? m.target).map fun g => g.members.length).getD 0 →
      ∃ t, exec (.stageCommit l tag 2 m.target m.declared m.expected) s = .next t ∧ taken t 2 raised ∧
        (∀ g, t.store.group? g = if g = m.target then some ⟨label, m.members, raised⟩ else s.store.group? g) ∧
        t.store = { s.store with groups := t.store.groups } ∧
        t = { s with lanes := t.lanes, store := t.store, staging := t.staging }) ∧
    (m.header = .removeGroup → s.store.groupEdit m.target = m.expected → (s.store.group? m.target).isSome →
      s.store.references m.target = 0 →
      ∃ t, exec (.stageCommit l tag 7 m.target m.declared m.expected) s = .next t ∧ taken t 7 0 ∧
        (∀ g, t.store.group? g = if g = m.target then none else s.store.group? g) ∧
        t.store = { s.store with groups := t.store.groups } ∧
        t = { s with lanes := t.lanes, store := t.store, staging := t.staging }) ∧
    (∀ dd we th hy ho, m.header = .zoneSetup dd we th hy ho → m.target < 32 →
      (s.zoneSetup m.target).editCount = m.expected →
      ∃ t, exec (.stageCommit l tag 3 m.target m.declared m.expected) s = .next t ∧ taken t 3 raised ∧
        (∀ z, t.zoneSetup z = if z = m.target then ⟨dd, decide (we = 1), th, hy, ho, raised⟩ else s.zoneSetup z) ∧
        t.store = { s.store with zoneSetups := t.store.zoneSetups } ∧ (∀ z, z ≠ m.target → t.zone z = s.zone z) ∧
        (let z := s.zone m.target
         let low := min z.duck dd
         let begun : RampKind → Int → Int → Nat → Zone := fun kind d0 d1 time =>
           if time = 0 then { z with duck := d1, ramp := none }
           else { z with duck := d0, ramp := some ⟨kind, d0, d1, time, 0⟩ }
         ((s.zoneSetup m.target).duckDepth = dd → t.zone m.target = z) ∧
         ((s.zoneSetup m.target).duckDepth ≠ dd →
           (∀ r, z.ramp = some r → r.kind = .attack →
             t.zone m.target = begun .attack low dd s.store.showSetup.duckAttack) ∧
           (∀ r, z.ramp = some r → r.kind = .release →
             t.zone m.target = if dd < z.duck then begun .release low 0 s.store.showSetup.duckRelease else z) ∧
           (z.ramp = none →
             t.zone m.target =
               if z.targeted = true ∧ z.duck < dd then begun .attack z.duck dd s.store.showSetup.duckAttack
               else { z with duck := low }))) ∧
        t = { s with lanes := t.lanes, store := t.store, zones := t.zones, staging := t.staging }) ∧
    (∀ ps, m.header = .triggerSetup ps → m.target = 0 → s.store.triggerSetup.editCount = m.expected →
      ∃ t, exec (.stageCommit l tag 4 m.target m.declared m.expected) s = .next t ∧ taken t 4 raised ∧
        (∀ n, n < 16 → t.store.triggerSetup.polarity.getD n .activeHigh =
          if ps.getD n 1 = 2 then .activeLow else .activeHigh) ∧
        t.store.triggerSetup.editCount = raised ∧ t.store = { s.store with triggerSetup := t.store.triggerSetup } ∧
        t = { s with lanes := t.lanes, store := t.store, staging := t.staging }) ∧
    (∀ mode lim att rel, m.header = .showSetup mode lim att rel → m.target = 0 →
      s.store.showSetup.editCount = m.expected →
      ∃ t, exec (.stageCommit l tag 5 m.target m.declared m.expected) s = .next t ∧ taken t 5 raised ∧
        t.store = { s.store with showSetup := ⟨if mode = 2 then .hold else .wrap, lim, att, rel, raised⟩ } ∧
        t = { s with lanes := t.lanes, store := t.store, staging := t.staging })

/-- While RUNNING or INTERVAL no step but power-on and the reset pin changes the show store. For every state whose performance
record is RUNNING or INTERVAL and every step from it, whatever command waits at the front (a STAGE COMMIT inside a good
frame among them) or none, other than POWER_ON and RESET_PIN: if the step answers a next state, its cue stack, group table,
zone setups, trigger setup and show setup are those before. (9.3 The commit; 4.7 The store across resets.) -/
def Obligations.StoreIsLockedDuringAPerformance : Prop :=
  ∀ s t : State, (s.record.state = .running ∨ s.record.state = .interval) →
    (∀ c rest, s.pending = c :: rest → c ≠ .powerOn ∧ c ≠ .resetPin) → step s = .next t → t.store = s.store

/-- A GO that passes its checks takes standby by the steps of R85. GO on any lane, plain or expecting standby, with standby a
cue of the stack that the lane may take and no more than 16 runs in the list. Where the cue has no run and fewer than 16 are
in the list: its run joins the tail in PRE_WAIT with the cue's pre-wait and follow (COUNTING its count for BEATS), standby
is the next cue, a curtain cue starts a performance armed for CURTAIN (PERFORMANCE_START, then GO, at clock 0), the last-GO
record holds cue, lane and clock, GO is handed to the record, STANDBY and RUN are added to every lane, a pre-wait of 0 is
dispatched at once as PRE_WAIT_END dispatches it, and the reply is OK with cue, new standby and the started flag. Where the
cue, not a curtain cue and with a pre-wait, has an ACTIVE run, that run is retired first: its slots have owner none and
RUN_RETIRED with SAME_CUE precedes the GO. Where it has none and 16 are in the list, the oldest, if ACTIVE, is retired
likewise with LIST_FULL. Where the cue's run is in PRE_WAIT, that pre-wait is cut: its actions are dispatched with owner
none (each whole at once in index order, or one started move, whose slot then has owner none) before the run leaves, and
RUN_RETIRED says so. (5.3 GO; 5.4 Runs; 5.2 The last-GO record; 8.2 Arming and starting; 5.7 Retirement.) -/
def Obligations.GoTakesStandbyInOrder : Prop :=
  ∀ (l : Lane) (tag : Byte) (e : Option Nat) (s : State) (c : Nat) (rec : Cue),
    s.runner.standby = some c → s.store.cue? c = some rec → (e = none ∨ (e = some c ∧ 1 ≤ c ∧ c ≤ 9999999)) →
    (l = .p → rec.promptCallable = true) →
    let made : Run :=
      { cue := c, origin := .lane l, state := .preWait, preWait := rec.preWait, follow := rec.follow,
        followState := (match rec.follow with | .beats _ => .counting | _ => .none),
        followRemaining := (match rec.follow with | .beats n => n | _ => 0), slots := 0, snapped := 0 }
    let next := s.store.nextAfter c
    let starts := rec.curtain && decide (s.record.state = .armed ∧ s.record.startMode = some .curtain)
    (s.run? c = none → s.runner.runs.length < 16 →
      ∃ t u v, exec (.go l tag e) s = .next t ∧
        Noticed s u (if starts then [.performance, .standby, .run] else [.standby, .run]) ∧
        u.runner = { s.runner with
          runs := s.runner.runs ++ [made], standby := next,
          lastGo := some ⟨c, .lane l, if starts then 0 else s.record.clock⟩ } ∧
        u.record = (if starts then
            ({ s.record with state := .running, clock := 0, delayRemaining := 0 }.hand (.lane l) (some c) none
              (.performanceStart .curtain)).hand (.lane l) (some c) none (.go next)
          else s.record.hand (.lane l) (some c) none (.go next)) ∧
        u = { s with lanes := u.lanes, runner := u.runner, record := u.record } ∧
        (if rec.preWait = 0 then exec (.preWaitEnd c) u = .next v else v = u) ∧
        Answered v t (.go l tag e) .ok (be 3 c ++ be 3 (next.getD 0) ++ [flag starts]) [] ∧
        t = { v with lanes := t.lanes }) ∧
    (∀ r, s.run? c = some r → r.state = .active → s.runner.runs.length ≤ 16 → rec.curtain = false → 1 ≤ rec.preWait →
      ∃ t, exec (.go l tag e) s = .next t ∧
        t.runner = { s.runner with
          runs := (s.runner.runs.filter fun x => x.cue != c) ++ [made], standby := next,
          lastGo := some ⟨c, .lane l, s.record.clock⟩ } ∧
        (∀ k, t.slot k = (s.slot k).map fun f => if f.owner = some c then { f with owner := none } else f) ∧
        t.record = (s.record.hand (.lane l) (some c) none (.runRetired .sameCue false)).hand (.lane l) (some c) none (.go next) ∧
        Answered s t (.go l tag e) .ok (be 3 c ++ be 3 (next.getD 0) ++ [0]) [.run, .standby] ∧
        t = { s with lanes := t.lanes, slots := t.slots, runner := t.runner, record := t.record }) ∧
  (∀ r rs, s.run? c = none → s.runner.runs = r :: rs → rs.length = 15 → r.state = .active → rec.curtain = false →
    1 ≤ rec.preWait →
    ∃ t, exec (.go l tag e) s = .next t ∧
      t.runner = { s.runner with
        runs := (s.runner.runs.filter fun x => x.cue != r.cue) ++ [made], standby := next,
        lastGo := some ⟨c, .lane l, s.record.clock⟩ } ∧
      (∀ k, t.slot k = (s.slot k).map fun f => if f.owner = some r.cue then { f with owner := none } else f) ∧
      t.record = (s.record.hand (.lane l) (some r.cue) none (.runRetired .listFull false)).hand (.lane l) (some c) none (.go next) ∧
      Answered s t (.go l tag e) .ok (be 3 c ++ be 3 (next.getD 0) ++ [0]) [.run, .standby] ∧
      t = { s with lanes := t.lanes, slots := t.slots, runner := t.runner, record := t.record }) ∧
  (∀ r, s.run? c = some r → r.state = .preWait → s.runner.runs.length ≤ 16 → rec.curtain = false → 1 ≤ rec.preWait →
    (∀ a ∈ rec.actions, a.AtOnce s) ∨ (∃ p v time cv, rec.actions = [.level (.point p) v time cv false] ∧ p < 1056 ∧
      (s.point p).membership = none ∧ 1 ≤ time ∧ -900 ≤ v ∧ v ≤ 120 ∧ s.slot 0 = none ∧ 1 ≤ s.poolFree) →
    ∃ t, exec (.go l tag e) s = .next t ∧
      t.runner = { s.runner with
        runs := (s.runner.runs.filter fun x => x.cue != c) ++ [made], standby := next,
        lastGo := some ⟨c, .lane l, s.record.clock⟩, lines := t.runner.lines } ∧
      (∀ k, t.line k = lineAfter k (s.line k) rec.actions) ∧
      (∀ k, t.zone k = { s.zone k with route := routeAfter k (s.zone k).route rec.actions }) ∧
      (∀ k, t.masks.getD k false = maskAfter k (s.masks.getD k false) rec.actions) ∧
      ((∀ a ∈ rec.actions, a.AtOnce s) →
        (∀ p, t.point p = pointAfter s.store p (s.point p) rec.actions) ∧
        ∀ k, t.slot k = (s.slot k).map fun f => if f.owner = some c then { f with owner := none } else f) ∧
      (∀ p v time cv, rec.actions = [.level (.point p) v time cv false] → 1 ≤ time →
        t.slot 0 = some ⟨none, 0, v, time, cv, 0, [⟨p, (s.point p).base⟩]⟩ ∧
        (∀ q, t.point q = if q = p then { s.point q with membership := some 0 } else s.point q) ∧
        ∀ k, k ≠ 0 → t.slot k = (s.slot k).map fun f => if f.owner = some c then { f with owner := none } else f) ∧
      t.record = (s.record.hand (.lane l) (some c) none (.runRetired .sameCue true)).hand (.lane l) (some c) none (.go next) ∧
      Answered s t (.go l tag e) .ok (be 3 c ++ be 3 (next.getD 0) ++ [0]) [.run, .standby] ∧
      t = { s with
        lanes := t.lanes, points := t.points, masks := t.masks, slots := t.slots, zones := t.zones, runner := t.runner,
        record := t.record })

/-- GO: OUT_OF_RANGE, NO_STANDBY, STALE and REFUSED_ROLE, in that order, and what each leaves. A GO whose expected standby is
outside 1 to 9,999,999 is refused OUT_OF_RANGE; then, with standby END, NO_STANDBY, each with an empty body and nothing else
changed. With standby a cue of the stack, a GO expecting another cue is refused STALE with standby in the reply: STALE_GO
with the lane, the expected cue and standby is handed to the record and nothing else changes. A GO on Lane P that passes
these, of a cue whose prompt-callable flag is clear, is refused REFUSED_ROLE with standby in the reply and nothing else
changed. (5.3 GO.) -/
def Obligations.GoIsRefusedByItsFirstFailingCheck : Prop :=
  ∀ (l : Lane) (tag : Byte) (s : State),
    (∀ c, (c = 0 ∨ 9999999 < c) → Refused s (.go l tag (some c)) .outOfRange []) ∧
    (∀ e, (∀ c, e = some c → 1 ≤ c ∧ c ≤ 9999999) →
      (s.runner.standby = none → Refused s (.go l tag e) .noStandby []) ∧
      (∀ x rec, s.runner.standby = some x → s.store.cue? x = some rec →
        (∀ c, e = some c → c ≠ x →
          ∃ t, exec (.go l tag e) s = .next t ∧
            t.record = s.record.hand (.lane l) (some c) none (.staleGo (some x)) ∧
            Answered s t (.go l tag e) .stale (be 3 x) [] ∧ t = { s with lanes := t.lanes, record := t.record }) ∧
        ((e = none ∨ e = some x) → l = .p → rec.promptCallable = false →
          Refused s (.go l tag e) .refusedRole (be 3 x))))

/-- PRE_WAIT_END: the cue's actions are handed over in index order, and the run then goes on as its follow says. For a run in
PRE_WAIT that owns no slot, with its cue in the stack, PRE_WAIT_END dispatches its actions: none at all changes lanes and
runner alone; a ROUTE sets its zone's route (of two for one zone the later stands); a MASK sets its mix's flag; a TRIGGER
puts its line in PULSE w, ACTIVE, IDLE, or REPEAT with phase ON, half the period rounded down remaining and its count left;
a LEVEL with fade time 0 on a point in no slot writes its base, and its trim to 0 with clear-trims. Each time the run is
then ACTIVE with its follow begun, or has left the list where it has none, and RUN is added to every lane. Nothing else
changes. (5.4 Runs; 5.5 Follows; 6.1 Zone state and routing; 2.4 Output masks; 5.8 Trigger lines.) -/
def Obligations.PreWaitEndDispatchesTheActions : Prop :=
  ∀ (s : State) (c : Nat) (r : Run) (rec : Cue), s.run? c = some r → r.state = .preWait → r.slots = 0 →
    s.store.cue? c = some rec →
    (rec.actions = [] →
      ∃ t, exec (.preWaitEnd c) s = .next t ∧ RunDispatched s t c r ∧ t = { s with lanes := t.lanes, runner := t.runner } ∧
        t.runner.lines = s.runner.lines) ∧
    (∀ z m, rec.actions = [.route z m] → z < 32 →
      ∃ t, exec (.preWaitEnd c) s = .next t ∧ RunDispatched s t c r ∧
        (∀ k, t.zone k = if k = z then { s.zone k with route := m } else s.zone k) ∧
        t = { s with lanes := t.lanes, zones := t.zones, runner := t.runner } ∧ t.runner.lines = s.runner.lines) ∧
    (∀ z m m', rec.actions = [.route z m, .route z m'] → z < 32 →
      ∃ t, exec (.preWaitEnd c) s = .next t ∧ RunDispatched s t c r ∧
        (∀ k, t.zone k = if k = z then { s.zone k with route := m' } else s.zone k) ∧
        t = { s with lanes := t.lanes, zones := t.zones, runner := t.runner } ∧ t.runner.lines = s.runner.lines) ∧
    (∀ m on, rec.actions = [.mask m on] → m < 24 →
      ∃ t, exec (.preWaitEnd c) s = .next t ∧ RunDispatched s t c r ∧
        (∀ k, t.masks.getD k false = if k = m then on else s.masks.getD k false) ∧
        t = { s with lanes := t.lanes, masks := t.masks, runner := t.runner } ∧ t.runner.lines = s.runner.lines) ∧
    (∀ n mode, rec.actions = [.trigger n mode] → n < 16 →
      ∃ t, exec (.preWaitEnd c) s = .next t ∧ RunDispatched s t c r ∧
        (∀ k, t.line k = if k = n then
            (match mode with
             | .pulse w => .pulse w
             | .set => .active
             | .clear => .idle
             | .repeating p left => .repeating true (p / 2) left p)
          else s.line k) ∧
        t = { s with lanes := t.lanes, runner := t.runner }) ∧
    (∀ p v cv clear, rec.actions = [.level (.point p) v 0 cv clear] → p < 1056 → (s.point p).membership = none →
      -900 ≤ v → v ≤ 120 →
      ∃ t, exec (.preWaitEnd c) s = .next t ∧ RunDispatched s t c r ∧
        (∀ q, t.point q = if q = p then { s.point q with base := v, trim := if clear then 0 else (s.point q).trim }
          else s.point q) ∧
        t = { s with lanes := t.lanes, points := t.points, runner := t.runner } ∧ t.runner.lines = s.runner.lines)

/-- A LEVEL action with a fade time starts in the lowest FREE slot, snaps without room, and takes points over; HALT takes them
out. For a run in PRE_WAIT with no slot whose one action is a LEVEL with a fade time, on a POINT or on a GROUP whose members
are distinct points, none of them in a slot: with room, the lowest FREE slot holds owner, index 0, target, duration, curve,
elapsed 0 and the members in order with their start levels (the effective level, captured with trim 0, under clear-trims;
the base otherwise), the run owns 1 slot, and an AFTER_END follow waits; without a FREE slot or pool entries, each base is
the level at once, the run's snapped count rises by the points and MOVES_SNAPPED is handed to the record. A point in a slot
with other members leaves it as it starts, keeping the base it had. A HALT of such a point takes it out alone; one that
empties an ownerless slot frees it. Where memberships and slots agree and no cue is twice in the list, a HALT or a takeover
of any POINT or GROUP frees every slot it empties, which the move may then take, and reports each to the run of its owner:
that run owns as many slots fewer, and where it owns none any more an AFTER_END follow that waited for cue end begins TIMING
with its delay, and an ACTIVE run with follow state NONE leaves the list; every other run is as it was. (3.3 Starting a
move; 3.1 Slots and the member pool; 3.4 Taking points out; 5.4 Runs; 5.5 Follows.) -/
def Obligations.MovesStartSnapAndTakeOver : Prop :=
  ∀ (s : State) (c : Nat) (r : Run) (rec : Cue), s.run? c = some r → r.state = .preWait → r.slots = 0 →
    s.store.cue? c = some rec →
    (∀ target ps v time cv clear, rec.actions = [.level target v time cv clear] → 1 ≤ time → -900 ≤ v → v ≤ 120 →
      ((∃ p, target = .point p ∧ ps = [p]) ∨ ∃ g grp, target = .group g ∧ s.store.group? g = some grp ∧ ps = grp.members) →
      ps ≠ [] → ps.Nodup → (∀ p ∈ ps, p < 1056 ∧ (s.point p).membership = none) →
      (∀ k, k < 32 → s.slot k = none → (∀ j, j < k → s.slot j ≠ none) → ps.length ≤ s.poolFree →
        ∃ t, exec (.preWaitEnd c) s = .next t ∧
          t.slot k = some ⟨some c, 0, v, time, cv, 0,
            ps.map fun p => ⟨p, if clear then (s.point p).effective else (s.point p).base⟩⟩ ∧
          (∀ j, j ≠ k → t.slot j = s.slot j) ∧
          (∀ p, t.point p = if p ∈ ps then
              (if clear then { base := (s.point p).effective, trim := 0, membership := some k }
               else { s.point p with membership := some k })
            else s.point p) ∧
          (r.follow = .none → r.followState = .none →
            t.run? c = some { r with state := .active, preWait := 0, slots := 1 }) ∧
          (∀ d, r.follow = .afterEnd d → t.run? c = some { r with
            state := .active, preWait := 0, slots := 1, followState := .waitingEnd, followRemaining := 0 }) ∧
          Noticed s t [.run] ∧
          t = { s with lanes := t.lanes, points := t.points, slots := t.slots, runner := t.runner }) ∧
      (((∀ k, k < 32 → s.slot k ≠ none) ∨ s.poolFree < ps.length) →
        ∃ t, exec (.preWaitEnd c) s = .next t ∧
          (∀ p, t.point p = if p ∈ ps then
              { s.point p with base := v, trim := if clear then 0 else (s.point p).trim }
            else s.point p) ∧
          RunDispatched s t c { r with snapped := r.snapped + ps.length } ∧
          t.record = s.record.hand .engine (some c) none (.movesSnapped 0 ps.length) ∧
          t = { s with lanes := t.lanes, points := t.points, runner := t.runner, record := t.record })) ∧
    (∀ p j f, p < 1056 → j < 32 → (s.point p).membership = some j → s.slot j = some f → (∃ m ∈ f.members, m.point ≠ p) →
      (∀ v time cv k, rec.actions = [.level (.point p) v time cv false] → 1 ≤ time → -900 ≤ v → v ≤ 120 →
        k < 32 → s.slot k = none → (∀ i, i < k → s.slot i ≠ none) → 1 ≤ s.poolFree →
        ∃ t, exec (.preWaitEnd c) s = .next t ∧
          t.slot j = some { f with members := f.members.filter fun m => m.point != p } ∧
          t.slot k = some ⟨some c, 0, v, time, cv, 0, [⟨p, (s.point p).base⟩]⟩ ∧
          (∀ i, i ≠ j → i ≠ k → t.slot i = s.slot i) ∧
          (∀ q, t.point q = if q = p then { s.point q with membership := some k } else s.point q)) ∧
      (rec.actions = [.halt (.point p)] →
        ∃ t, exec (.preWaitEnd c) s = .next t ∧ RunDispatched s t c r ∧
          t.slot j = some { f with members := f.members.filter fun m => m.point != p } ∧
          (∀ i, i ≠ j → t.slot i = s.slot i) ∧
          (∀ q, t.point q = if q = p then { s.point q with membership := none } else s.point q) ∧
          t = { s with lanes := t.lanes, points := t.points, slots := t.slots, runner := t.runner })) ∧
    (∀ p j f, p < 1056 → j < 32 → (s.point p).membership = some j → s.slot j = some f → (∀ m ∈ f.members, m.point = p) →
      f.owner = none → rec.actions = [.halt (.point p)] →
      ∃ t, exec (.preWaitEnd c) s = .next t ∧ RunDispatched s t c r ∧ t.slot j = none ∧
        (∀ i, i ≠ j → t.slot i = s.slot i) ∧
        (∀ q, t.point q = if q = p then { s.point q with membership := none } else s.point q) ∧
        t = { s with lanes := t.lanes, points := t.points, slots := t.slots, runner := t.runner }) ∧
    (FadesOk s → (s.runner.runs.map (·.cue)).Nodup → ∀ target ps,
      ((∃ p, target = .point p ∧ ps = [p]) ∨ ∃ g grp, target = .group g ∧ s.store.group? g = some grp ∧ ps = grp.members) →
      (∀ p ∈ ps, p < 1056) →
      (rec.actions = [.halt target] →
        ∃ t, exec (.preWaitEnd c) s = .next t ∧
          RunDispatched { s with runner := { s.runner with runs := s.runsAfter ps } } t c r ∧
          (∀ k, t.slot k = (s.slot k).bind (FadeSlot.without ps)) ∧
          (∀ q, t.point q = if q ∈ ps then { s.point q with membership := none } else s.point q) ∧
          t = { s with lanes := t.lanes, points := t.points, slots := t.slots, runner := t.runner }) ∧
      (∀ v time cv clear k, rec.actions = [.level target v time cv clear] → 1 ≤ time → -900 ≤ v → v ≤ 120 →
        ps ≠ [] → ps.Nodup → k < 32 → (s.slot k).bind (FadeSlot.without ps) = none →
        (∀ j, j < k → (s.slot j).bind (FadeSlot.without ps) ≠ none) →
        ps.length ≤ s.poolFree + (ps.filter fun p => (s.point p).membership.isSome).length →
        ∃ t, exec (.preWaitEnd c) s = .next t ∧
          t.slot k = some ⟨some c, 0, v, time, cv, 0,
            ps.map fun p => ⟨p, if clear then (s.point p).effective else (s.point p).base⟩⟩ ∧
          (∀ j, j ≠ k → t.slot j = (s.slot j).bind (FadeSlot.without ps)) ∧
          (∀ p, t.point p = if p ∈ ps then
              (if clear then { base := (s.point p).effective, trim := 0, membership := some k }
               else { s.point p with membership := some k })
            else s.point p) ∧
          (∀ d, d ≠ c → t.run? d = (s.run? d).bind fun x => x.afterReports (s.emptiedOf ps d)) ∧
          (r.follow = .none → r.followState = .none →
            t.run? c = some { r with state := .active, preWait := 0, slots := 1 }) ∧
          (∀ d, r.follow = .afterStart d → t.run? c = some { r with
            state := .active, preWait := 0, slots := 1, followState := .timing, followRemaining := d }) ∧
          (∀ d, r.follow = .afterEnd d → t.run? c = some { r with
            state := .active, preWait := 0, slots := 1, followState := .waitingEnd, followRemaining := 0 }) ∧
          (∀ n, r.follow = .beats n → r.followState = .counting →
            t.run? c = some { r with state := .active, preWait := 0, slots := 1 }) ∧
          t.runner = { s.runner with runs := t.runner.runs } ∧ Noticed s t [.run] ∧
          t = { s with lanes := t.lanes, points := t.points, slots := t.slots, runner := t.runner }))

/-- A list of actions of any kinds is handed over in index order, each action finding what those before it left. For a run in
PRE_WAIT that owns no slot, with its cue in the stack. Where every action is a ROUTE, MASK, TRIGGER, LEVEL with fade time 0
or HALT, in any number and order, with no point named in a slot: each zone's route, mix's flag, line's state and point's
base and trim is what the last action of its own kind for it gives, the run goes on as its follow says, and nothing else
changes. Where among such actions one is a LEVEL with a fade time of a POINT in no slot, with room, which no later action
names: the lowest FREE slot holds owner, that action's index, target, duration, curve, elapsed 0 and the point with its
start level as the actions before it left it, and the run owns 1 slot. Where the list is two LEVELs with fade times of one
POINT, the second takes the point over: the slot the first took frees and is taken again, the run owns 1 slot, and the run
is not completed by it. (5.4 Runs; 3.3 Starting a move; 3.4 Taking points out; 6.1 Zone state and routing; 2.4 Output masks;
5.8 Trigger lines.) -/
def Obligations.ActionListsOfSeveralKindsAreHandedInOrder : Prop :=
  ∀ (s : State) (c : Nat) (r : Run) (rec : Cue), s.run? c = some r → r.state = .preWait → r.slots = 0 →
    s.store.cue? c = some rec →
    let effects : State → Prop := fun t =>
      (∀ z, t.zone z = { s.zone z with route := routeAfter z (s.zone z).route rec.actions }) ∧
        (∀ m, t.masks.getD m false = maskAfter m (s.masks.getD m false) rec.actions) ∧
        ∀ n, t.line n = lineAfter n (s.line n) rec.actions
    ((∀ a ∈ rec.actions, a.AtOnce s) →
      ∃ t, exec (.preWaitEnd c) s = .next t ∧ RunDispatched s t c r ∧ effects t ∧
        (∀ p, t.point p = pointAfter s.store p (s.point p) rec.actions) ∧
        t = { s with
          lanes := t.lanes, points := t.points, masks := t.masks, zones := t.zones, runner := t.runner }) ∧
    (∀ pre post p v time cv clear k, rec.actions = pre ++ .level (.point p) v time cv clear :: post →
      (∀ a ∈ pre ++ post, a.AtOnce s) → (∀ a ∈ post, p ∉ s.store.pointsNamed a) →
      p < 1056 → (s.point p).membership = none → 1 ≤ time → -900 ≤ v → v ≤ 120 →
      k < 32 → s.slot k = none → (∀ j, j < k → s.slot j ≠ none) → 1 ≤ s.poolFree →
      ∃ t, exec (.preWaitEnd c) s = .next t ∧ effects t ∧
        (let q := pointAfter s.store p (s.point p) pre
         t.slot k = some ⟨some c, pre.length, v, time, cv, 0, [⟨p, if clear then q.effective else q.base⟩]⟩ ∧
         t.point p = if clear then ⟨q.effective, 0, some k⟩ else { q with membership := some k }) ∧
        (∀ j, j ≠ k → t.slot j = s.slot j) ∧
        (∀ x, x ≠ p → t.point x = pointAfter s.store x (s.point x) (pre ++ post)) ∧
        (r.follow = .none → r.followState = .none → t.run? c = some { r with state := .active, preWait := 0, slots := 1 }) ∧
        (∀ d, r.follow = .afterEnd d → t.run? c = some { r with
          state := .active, preWait := 0, slots := 1, followState := .waitingEnd, followRemaining := 0 }) ∧
        Noticed s t [.run] ∧
        t = { s with
          lanes := t.lanes, points := t.points, masks := t.masks, slots := t.slots, zones := t.zones,
          runner := t.runner }) ∧
    (∀ p v time cv clear v' time' cv' clear' k,
      rec.actions = [.level (.point p) v time cv clear, .level (.point p) v' time' cv' clear'] →
      p < 1056 → (s.point p).membership = none → 1 ≤ time → 1 ≤ time' → -900 ≤ v → v ≤ 120 → -900 ≤ v' → v' ≤ 120 →
      k < 32 → s.slot k = none → (∀ j, j < k → s.slot j ≠ none) → 1 ≤ s.poolFree →
      r.follow = .none → r.followState = .none →
      ∃ t, exec (.preWaitEnd c) s = .next t ∧
        (let q : Point := if clear then ⟨(s.point p).effective, 0, none⟩ else s.point p
         t.slot k = some ⟨some c, 1, v', time', cv', 0, [⟨p, if clear' then q.effective else q.base⟩]⟩ ∧
         t.point p = if clear' then ⟨q.effective, 0, some k⟩ else { q with membership := some k }) ∧
        (∀ j, j ≠ k → t.slot j = s.slot j) ∧ (∀ x, x ≠ p → t.point x = s.point x) ∧
        t.run? c = some { r with state := .active, preWait := 0, slots := 1 } ∧ Noticed s t [.run] ∧
        t = { s with lanes := t.lanes, points := t.points, slots := t.slots, runner := t.runner })

/-- FOLLOW_EXPIRY: a GO of the next cue when that is standby, and a void follow otherwise. For a run whose follow is TIMING or
COUNTING. Where the next cue after the run's is not standby, or there is none: FOLLOW_VOID with the run's cue and that
target is handed to the record with lane FOLLOW, the run's follow is over (an ACTIVE run that owns no slot leaves the list),
RUN is added to every lane and nothing else changes. Where it is standby, with a pre-wait, no run of its own, no more than
15 runs in the list and no curtain flag: it is GOne whatever its prompt-callable flag, with origin FOLLOW; its run joins the
tail, standby moves on, FOLLOW_GO is handed to the record, and STANDBY and RUN are added to every lane. (5.5 Follows; 5.3
GO.) -/
def Obligations.FollowExpiryGoesOrIsVoid : Prop :=
  ∀ (s : State) (c : Nat) (r : Run), s.run? c = some r → (r.followState = .timing ∨ r.followState = .counting) →
    ((∀ x, s.store.nextAfter c = some x → s.runner.standby ≠ some x) →
      ∃ t, exec (.followExpiry c) s = .next t ∧
        t.record = s.record.hand .follow (some c) none (.followVoid (s.store.nextAfter c)) ∧
        t.run? c = (if r.state = .active ∧ r.slots = 0 then none
          else some { r with followState := .none, followRemaining := 0 }) ∧
        (∀ d, d ≠ c → t.run? d = s.run? d) ∧ t.runner = { s.runner with runs := t.runner.runs } ∧
        Noticed s t [.run] ∧ t = { s with lanes := t.lanes, runner := t.runner, record := t.record }) ∧
    (∀ x rec, s.store.nextAfter c = some x → s.runner.standby = some x → s.store.cue? x = some rec → 1 ≤ rec.preWait →
      rec.curtain = false → s.run? x = none → s.runner.runs.length < 16 →
      ∃ t, exec (.followExpiry c) s = .next t ∧
        t.run? x = some
          { cue := x, origin := .follow, state := .preWait, preWait := rec.preWait, follow := rec.follow,
            followState := (match rec.follow with | .beats _ => .counting | _ => .none),
            followRemaining := (match rec.follow with | .beats n => n | _ => 0), slots := 0, snapped := 0 } ∧
        t.run? c = (if r.state = .active ∧ r.slots = 0 then none
          else some { r with followState := .none, followRemaining := 0 }) ∧
        (∀ d, d ≠ c → d ≠ x → t.run? d = s.run? d) ∧
        (t.runner.runs.getLast?.map fun y => y.cue) = some x ∧
        t.runner = { s.runner with
          runs := t.runner.runs, standby := s.store.nextAfter x, lastGo := some ⟨x, .follow, s.record.clock⟩ } ∧
        t.record = s.record.hand .follow (some x) none (.followGo (s.store.nextAfter x)) ∧
        Noticed s t [.standby, .run] ∧ t = { s with lanes := t.lanes, runner := t.runner, record := t.record })

/-- BEAT: ignored within 20 ms of the last counted one, and counted by every COUNTING run otherwise. An edge less than 20 ms of
the time base after the last counted beat changes nothing. Any other is counted: the beat counter rises by 1, from 65,535 to
0, and the time of the last counted beat is now; with no cue twice in the list, each COUNTING run with more than one beat
left has one fewer left and every other run is unchanged; and with one run, COUNTING its last beat, its follow expires as
FOLLOW_EXPIRY gives. With any runs, each run of the list when the beat comes is taken in list order, head first, in the
state that those before it left: COUNTING with more than one beat left it has one fewer, at its last beat its follow expires
as FOLLOW_EXPIRY gives, finding standby as the ones before left it, and otherwise it is unchanged. That a run GOne at the
beat is not counted by that beat, even where its cue had a run in the list, is the model's reading (notes/assumptions/9.md,
which extends R93). The time base is the model's millisecond count (notes/assumptions/19.md). (5.6 The beat input;
notes/assumptions/19.md; 5.5 Follows; notes/assumptions/9.md.) -/
def Obligations.BeatsAreSpacedAndCounted : Prop :=
  ∀ s : State,
    (∀ b, s.runner.lastBeat = some b → s.timeBase < b + 20 → exec .beat s = .next s) ∧
    ((∀ b, s.runner.lastBeat = some b → b + 20 ≤ s.timeBase) →
      ((s.runner.runs.map (·.cue)).Nodup →
        (∀ r ∈ s.runner.runs, r.followState = .counting → 2 ≤ r.followRemaining) →
        exec .beat s = .next { s with runner := { s.runner with
          beatCounter := (if s.runner.beatCounter % 65536 = 65535 then 0 else s.runner.beatCounter % 65536 + 1),
          lastBeat := some s.timeBase,
          runs := s.runner.runs.map fun r =>
            if r.followState = .counting then { r with followRemaining := r.followRemaining - 1 } else r } }) ∧
      (∀ r, s.runner.runs = [r] → r.followState = .counting → r.followRemaining = 1 →
        exec .beat s = exec (.followExpiry r.cue) { s with runner := { s.runner with
          beatCounter := (if s.runner.beatCounter % 65536 = 65535 then 0 else s.runner.beatCounter % 65536 + 1),
          lastBeat := some s.timeBase } }) ∧
      ∃ t, exec .beat s = .next t ∧
        BeatTakes (s.runner.runs.map (·.cue)) [] { s with runner := { s.runner with
          beatCounter := (if s.runner.beatCounter % 65536 = 65535 then 0 else s.runner.beatCounter % 65536 + 1),
          lastBeat := some s.timeBase } } t)

/-- STANDBY SET sets standby to a cue of the stack. On Lane P it is refused REFUSED_ROLE, and on Lane A or B a cue number
without a cue in the stack is refused NOT_FOUND, whatever the number, with nothing changed. Otherwise, in every state,
standby is the cue named; the reply is OK with standby before and after; STANDBY is added to every lane exactly if standby
was another; and nothing else changes: no run, no follow, no last-GO record, and nothing is logged or counted. (R75.) -/
def Obligations.StandbySetMovesStandby : Prop :=
  ∀ (l : Lane) (tag : Byte) (c : Nat) (s : State),
    (l = .p → Refused s (.standbySet l tag c) .refusedRole []) ∧
    (l ≠ .p → s.store.cue? c = none → Refused s (.standbySet l tag c) .notFound []) ∧
    (l ≠ .p → (s.store.cue? c).isSome →
      ∃ t, exec (.standbySet l tag c) s = .next t ∧
        Answered s t (.standbySet l tag c) .ok (be 3 (s.runner.standby.getD 0) ++ be 3 c)
          (if s.runner.standby = some c then [] else [.standby]) ∧
        t = { s with lanes := t.lanes, runner := { s.runner with standby := some c } })

/-- PANIC removes every run, frees every slot, idles every line, and keeps bases, standby, calls and routes. PANIC on any lane,
in every state: the run list is empty, every slot is FREE, every point keeps base and trim and is in no slot, every line is
IDLE; standby, the last-GO record and the beats are kept; PANIC with the number of runs removed is handed to the record;
STANDBY and RUN are added to every lane; the reply is OK with that number and standby; nothing else changes. (5.7
Retirement; 3.5 Freezing.) -/
def Obligations.PanicStopsAllCueMotion : Prop :=
  ∀ (l : Lane) (tag : Byte) (s : State),
    ∃ t, exec (.panic l tag) s = .next t ∧ t.runner = { s.runner with runs := [], lines := t.runner.lines } ∧
      (∀ n, t.line n = .idle) ∧ (∀ k, t.slot k = none) ∧ (∀ p, t.point p = { s.point p with membership := none }) ∧
      t.record = s.record.hand (.lane l) none none (.panic s.runner.runs.length) ∧
      Answered s t (.panic l tag) .ok (be 1 s.runner.runs.length ++ be 3 (s.runner.standby.getD 0)) [.standby, .run] ∧
      t = { s with lanes := t.lanes, points := t.points, slots := t.slots, runner := t.runner, record := t.record }

/-- PULSE_END, REPEAT_PHASE_END, a PULSE of w ms, a REPEAT of n turns of T ms, and the level each state drives. PULSE_END makes
a pulsing line IDLE. REPEAT_PHASE_END turns phase ON to OFF with the rest of the period remaining, and phase OFF to a new
turn with one fewer left, or to IDLE at the last; every other line and all else is unchanged. Over milliseconds a PULSE of w
is PULSE with w − k left at each k below w and IDLE at w; a REPEAT of n turns of T (at least 2) ms is driven at k exactly
while k mod T is below half of T rounded down, and is IDLE at n × T. With no run in the list and no command waiting, a step
moves every line one millisecond (the model's tick, notes/assumptions/1.md). A line is driven high while driven, inverted
under ACTIVE_LOW. (5.8 Trigger lines; 4.6 The setup records; notes/assumptions/1.md.) -/
def Obligations.TriggerLinesPulseAndRepeat : Prop :=
  (∀ (s : State) (n : Nat), n < 16 →
    (∀ w, s.line n = .pulse w →
      ∃ t, exec (.pulseEnd n) s = .next t ∧ (∀ k, t.line k = if k = n then .idle else s.line k) ∧
        t = { s with runner := { s.runner with lines := t.runner.lines } }) ∧
    (∀ rem left p, s.line n = .repeating true rem left p →
      ∃ t, exec (.repeatPhaseEnd n) s = .next t ∧
        (∀ k, t.line k = if k = n then .repeating false (p - p / 2) left p else s.line k) ∧
        t = { s with runner := { s.runner with lines := t.runner.lines } }) ∧
    (∀ rem left p, s.line n = .repeating false rem left p →
      ∃ t, exec (.repeatPhaseEnd n) s = .next t ∧
        (∀ k, t.line k = if k = n then (if 2 ≤ left then .repeating true (p / 2) (left - 1) p else .idle) else s.line k) ∧
        t = { s with runner := { s.runner with lines := t.runner.lines } })) ∧
  (∀ w k : Nat, (k < w → LineState.tick^[k] (.pulse w) = .pulse (w - k)) ∧
    (1 ≤ w → LineState.tick^[w] (.pulse w) = .idle)) ∧
  (∀ p left k : Nat, 2 ≤ p → 1 ≤ left →
    (k < left * p → (LineState.tick^[k] (.repeating true (p / 2) left p)).driven = decide (k % p < p / 2)) ∧
    LineState.tick^[left * p] (.repeating true (p / 2) left p) = .idle) ∧
  (∀ s : State, s.pending = [] → s.runner.runs = [] → ∃ t, step s = .next t ∧ ∀ n, t.line n = (s.line n).tick) ∧
  (∀ (s : State) (n : Nat), s.lineHigh n =
    if s.store.triggerSetup.polarity.getD n .activeHigh = .activeHigh then (s.line n).driven else !(s.line n).driven)

/-- RUN STATUS, TRIGGER STATUS, ZONE STATUS and CALL STATUS report the runner, the lines, the zones and the calls. RUN STATUS
from position 0 to 15 is OK with standby, last GO, beat counter, time since the last beat (to 65,535), the number of runs,
and up to 8 runs from there in list order with their fields; above 15 it is OUT_OF_RANGE. TRIGGER STATUS carries the sixteen
lines' states. ZONE STATUS from a zone below 32 with a count of 1 to 16 carries route, effective zone level, duck, ramp and
targeted flag of each; a first zone above 31 is NOT_FOUND, then another count OUT_OF_RANGE. CALL STATUS carries the live
call and the waiting calls in grant order. List counts and fixed-width absent fields are the model's reading of the layout
(notes/assumptions/7.md, 32.md). (5.9 Reading the runner; 6.6 Reading the relay; notes/assumptions/7.md;
notes/assumptions/32.md.) -/
def Obligations.RunnerAndRelayReadsReportTheState : Prop :=
  ∀ (l : Lane) (tag : Byte) (first count : Nat) (s : State),
    (15 < first → Refused s (.runStatus l tag first) .outOfRange []) ∧
    (first ≤ 15 → ServedRead s (.runStatus l tag first)
      (be 3 (s.runner.standby.getD 0) ++
        (match s.runner.lastGo with
         | none => 0 :: (be 3 0 ++ be 1 0 ++ be 4 0)
         | some g => 1 :: (be 3 g.cue ++ be 1 g.origin.code ++ be 4 g.showTime)) ++
        be 2 s.runner.beatCounter ++
        (match s.runner.lastBeat with
         | none => 0 :: be 3 0
         | some b => 1 :: be 3 (min 65535 (s.timeBase - b))) ++
        be 1 s.runner.runs.length ++ be 1 (min 8 (s.runner.runs.length - first)) ++
        ((s.runner.runs.drop first).take 8).flatMap fun r =>
          be 3 r.cue ++ be 1 r.origin.code ++ be 1 r.state.code ++ be 3 r.preWait ++ be 1 r.follow.kindCode
            ++ be 1 r.followState.code ++ be 3 r.followRemaining ++ be 1 r.slots ++ be 2 r.snapped)) ∧
    ServedRead s (.triggerStatus l tag)
      ((List.range 16).flatMap fun n => match s.line n with
        | .idle => [1, 0]
        | .active => [2, 1]
        | .pulse rem => 3 :: (be 3 rem ++ [1])
        | .repeating on rem left _ => 4 :: (be 1 (if on then 1 else 2) ++ be 3 rem ++ be 1 left ++ [flag on])) ∧
    (32 ≤ first → Refused s (.zoneStatus l tag first count) .notFound []) ∧
    (first < 32 → (count = 0 ∨ 16 < count) → Refused s (.zoneStatus l tag first count) .outOfRange []) ∧
    (first < 32 → 1 ≤ count → count ≤ 16 →
      ServedRead s (.zoneStatus l tag first count)
        (be 1 (min count (32 - first)) ++ (List.range (min count (32 - first))).flatMap fun j =>
          be 1 ((s.zone (first + j)).route.getD 255) ++ signed (s.point (1024 + (first + j))).effective
            ++ signed (s.zone (first + j)).duck
            ++ (match (s.zone (first + j)).ramp with
                | none => 1 :: (signed 0 ++ be 3 0 ++ be 3 0)
                | some r => (match r.kind with | .attack => 2 | .release => 3) ::
                    (signed r.target ++ be 3 r.time ++ be 3 r.elapsed))
            ++ [flag (s.zone (first + j)).targeted])) ∧
    ServedRead s (.callStatus l tag)
      ((match s.calls.live with
        | none => 0 :: List.replicate 15 0
        | some x => 1 :: (be 1 (laneCode x.call.lane) ++ be 2 x.call.arrival ++ be 1 x.call.cls.code
            ++ be 4 x.call.zones.toNat ++ signed x.call.level ++ be 3 x.limit ++ be 2 (min 65535 (x.timeLive / 1000)))) ++
        be 1 s.calls.waiting.length ++
        ([CallClass.showStop, .artist, .general].flatMap fun k => s.calls.waiting.filter fun c => c.cls == k).flatMap fun c =>
          be 1 (laneCode c.lane) ++ be 2 c.arrival ++ be 1 c.cls.code ++ be 4 c.zones.toNat ++ signed c.level)

/-- ALARM POLL, RECORD STATUS, READ LOG, LANE STATUS, RESET CAUSES and IDENTITY report the state. ALARM POLL from a zone below
32 carries the clock state, whether it is faulted, the number of zones holding an alarm, and up to 24 of them from that zone
on with both alarms, quiet count, hold and last window; above 31 it is OUT_OF_RANGE. With the log in order (LogOk, an
invariant), RECORD STATUS carries the record's fields, and READ LOG from k carries the kept entries from k on, up to 8, with
written, lost, the oldest kept (0 while written is at most 2048), the gap flag and the next sequence; an entry is its 16
characters of 10.7: seq; kind in the upper 5 bits over the clock; lane, cue and zone bits; cue or zone; and the detail that
10.7 gives its kind. LANE STATUS carries the lane's role, counters, notices and attention; RESET CAUSES the cause record;
IDENTITY 1207, 2440, 1, the lane and its role. List counts, fixed-width absent fields and the notice set's character are the
model's reading of the layout (notes/assumptions/7.md, 32.md, 34.md). (7.8 Reading the alarms; 8.8 Reading the record; 8.7
The log; 10.1 Characters and frames; 10.8 Resets of the engine; notes/assumptions/7.md; notes/assumptions/34.md;
notes/assumptions/32.md; 10.7 Layouts.) -/
def Obligations.RecordAndLaneReadsReportTheState : Prop :=
  ∀ (l : Lane) (tag : Byte) (first : Nat) (s : State),
    (32 ≤ first → Refused s (.alarmPoll l tag first) .outOfRange []) ∧
    (let holds := fun z => (s.watchZone z).silentAlarm || (s.watchZone z).overAlarm
     let listed := ((List.range 32).filter fun z => holds z && decide (first ≤ z)).take 24
     first < 32 → ServedRead s (.alarmPoll l tag first)
      (be 1 s.audio.clock.code ++ [flag (decide (s.audio.clock ≠ .good))]
        ++ be 1 ((List.range 32).filter holds).length ++ be 1 listed.length ++ listed.flatMap fun z =>
          be 1 z ++ [flag (s.watchZone z).silentAlarm, flag (s.watchZone z).overAlarm] ++ be 2 (s.watchZone z).quiet
            ++ be 2 (s.watchZone z).setup.hold
            ++ (match (s.watchZone z).last with
                | none => be 1 0 ++ signed 0
                | some w => be 1 w.cls.code ++ signed w.peakLevel))) ∧
    (let r := s.record
     let entry : LogEntry → List Byte := fun e =>
       let kind : Nat := match e.detail with
         | .performanceStart _ => 1 | .go _ => 2 | .followGo _ => 3 | .staleGo _ => 4 | .followVoid _ => 5 | .panic _ => 6
         | .runRetired _ _ => 7 | .movesSnapped _ _ => 8 | .callLive _ _ _ => 9 | .callEnd _ _ => 10
         | .alarmSetSilent _ _ => 11 | .alarmSetOver _ => 11 | .alarmClear _ _ => 12 | .audioFault _ => 13
         | .audioRestored _ => 14 | .inputSwap _ _ _ _ => 15 | .inputRestore _ => 15 | .intervalBegin _ => 16
         | .intervalEnd _ _ => 17 | .engineReset _ _ _ _ => 18 | .performanceEnd _ _ => 19
       let lane : Nat := match e.lane with
         | .lane .a => 1 | .lane .b => 2 | .lane .p => 3 | .follow => 4 | .engine => 5
       let detail : Nat := match e.detail with
         | .performanceStart .curtain => 0
         | .performanceStart (.delay d) => 2 ^ 31 + d
         | .go x => x.getD 0
         | .followGo x => x.getD 0
         | .staleGo x => x.getD 0
         | .followVoid x => x.getD 0
         | .panic n => n
         | .runRetired cause cut => (if cause = .listFull then 1 else 0) + (if cut then 2 else 0)
         | .movesSnapped index n => n + 2 ^ 8 * index
         | .callLive cls n arrival =>
           arrival + 2 ^ 16 * n + 2 ^ 24 * (match cls with | .general => 1 | .artist => 2 | .showStop => 3)
         | .callEnd reason arrival =>
           arrival + 2 ^ 24 * (match reason with | .closed => 1 | .timeout => 2 | .preempted => 3)
         | .alarmSetSilent level hold => hold + 2 ^ 16 * (-level).toNat
         | .alarmSetOver n => 2 ^ 31 + n
         | .alarmClear isOver cause => (if isOver then 2 ^ 31 else 0) +
           (match cause with | .deliberate => 0 | .signal => 1 | .disabled => 2 | .ack => 3)
         | .audioFault n => n
         | .audioRestored n => n
         | .inputSwap x xi y yi => x + 2 ^ 8 * xi + 2 ^ 16 * y + 2 ^ 24 * yi
         | .inputRestore n => 2 ^ 31 + n
         | .intervalBegin n => 2 ^ 28 * n
         | .intervalEnd n length => 2 ^ 28 * n + length
         | .engineReset runs slots waiting live => runs + 2 ^ 5 * slots + 2 ^ 11 * waiting +
           (match live with | none => 0 | some n => 2 ^ 15 + 2 ^ 16 * n)
         | .performanceEnd n closed => n + (if closed then 2 ^ 3 else 0)
       be 4 e.seq ++ be 4 (2 ^ 27 * kind + e.time)
         ++ be 1 (lane + (if e.cue.isSome then 2 ^ 3 else 0) + (if e.zone.isSome then 2 ^ 4 else 0))
         ++ be 3 (match e.cue, e.zone with | some c, _ => c | none, some z => z | none, none => 0) ++ be 4 detail
     let oldest := r.written - 2048
     let mode := be 1 (match r.logMode with | none => 0 | some .wrap => 1 | some .hold => 2)
     let kept := if r.written = 0 then 0 :: be 4 0 else 1 :: be 4 oldest
     (r.LogOk → ServedRead s (.recordStatus l tag)
        (be 1 r.state.code
          ++ (match r.startMode with
              | none => be 1 0 ++ be 3 0
              | some .curtain => be 1 1 ++ be 3 0
              | some (.delay d) => be 1 2 ++ be 3 d)
          ++ be 3 r.delayRemaining ++ mode ++ [flag r.neverStarted] ++ be 4 r.clock ++ be 1 r.intervals.length
          ++ (r.intervals.flatMap fun x => be 1 x.number ++ be 4 x.beginTime ++
              (match x.endTime with | none => 0 :: be 4 0 | some e => 1 :: be 4 e))
          ++ (be 2 r.counters.gos ++ be 2 r.counters.staleGos ++ be 2 r.counters.voidFollows
              ++ be 2 r.counters.snappedPoints ++ be 2 r.counters.callsLive ++ be 2 r.counters.alarmsSet)
          ++ be 4 r.written ++ be 2 r.lost ++ kept)) ∧
      (r.LogOk → ∀ k n : Nat, n = min 8 (r.written - max k oldest) →
        ServedRead s (.readLog l tag k)
          (be 1 r.state.code ++ mode ++ be 4 r.written ++ be 2 r.lost ++ be 4 oldest ++ [flag (decide (k < oldest))] ++ be 1 n
            ++ be 4 (if n = 0 then k else max k oldest + n)
            ++ ((r.log.drop (max k oldest - (r.written - r.log.length))).take n).flatMap entry))) ∧
    (∀ m, ServedRead s (.laneStatus l tag (laneCode m))
      (be 1 (match m with | .p => 2 | _ => 1) ++ be 1 (s.lanes.get m).framing ++ be 1 (s.lanes.get m).check
        ++ be 1 (s.lanes.get m).truncated ++ be 1 (s.lanes.get m).dropped ++ be 1 (s.lanes.get m).laneResets
        ++ [(s.lanes.get m).notices.char, flag (s.lanes.get m).notices.any])) ∧
    (∀ n, (n = 0 ∨ 3 < n) → Refused s (.laneStatus l tag n) .outOfRange []) ∧
    ServedRead s (.resetCauses l tag)
      ([flag s.causes.power, flag s.causes.pin, flag s.causes.engine]
        ++ be 1 (match s.causes.lane with | none => 0 | some .a => 1 | some .b => 2 | some .p => 3) ++ be 2 s.causes.count) ∧
    ServedRead s (.identity l tag)
      (be 2 1207 ++ be 2 2440 ++ be 2 1 ++ be 1 (laneCode l) ++ be 1 (match l with | .p => 2 | _ => 1))

/-- ZONE ROUTE sets the route of one zone. On Lane P it is refused REFUSED_ROLE; on Lane A or B a zone above 31, or a mix above
23 that is not 255 (NONE), is refused OUT_OF_RANGE, with nothing changed. Otherwise the zone's route is the mix, or NONE;
its duck, ramp and targeted flag and every other zone are kept; the reply is OK with the zone and the route before and
after; no notice is added, nothing is logged and nothing else changes. (6.1 Zone state and routing.) -/
def Obligations.ZoneRouteSetsItsRoute : Prop :=
  ∀ (l : Lane) (tag : Byte) (z m : Nat) (s : State),
    (l = .p → Refused s (.zoneRoute l tag z m) .refusedRole []) ∧
    (l ≠ .p → (32 ≤ z ∨ (24 ≤ m ∧ m ≠ 255)) → Refused s (.zoneRoute l tag z m) .outOfRange []) ∧
    (l ≠ .p → z < 32 → (m < 24 ∨ m = 255) →
      ∃ t, exec (.zoneRoute l tag z m) s = .next t ∧
        (∀ k, t.zone k = if k = z then { s.zone k with route := if m = 255 then none else some m } else s.zone k) ∧
        Answered s t (.zoneRoute l tag z m) .ok (be 1 z ++ be 1 ((s.zone z).route.getD 255) ++ be 1 m) [] ∧
        t = { s with lanes := t.lanes, zones := t.zones })

/-- CALL OPEN: refused in order, live at once, live by pre-emption, or waiting. A class code other than 1 to 3 is refused
MALFORMED, then an empty zone set OUT_OF_RANGE, then a lane that has a call live or waiting BUSY, with nothing changed.
Otherwise the call takes the arrival number, which rises by one (65,535 to 1), its level clamped to −900..+120. With no call
live it is live at once. A SHOW_STOP call over a live call of a lesser class ends that one PREEMPTED and is live, and the
waiting list is kept. Any other joins the tail of the waiting list. A call made live has the show setup's limit, its zones
attack and CALL_LIVE is handed to the record. CALL is added to every lane; the reply is OK with number, outcome, calls ahead
where it waits, and the clamped flag. The outcome's character (LIVE 1, WAITING 2) is the model's choice
(notes/assumptions/7.md). (6.4 The call queue; 6.3 Ducks and ramps; notes/assumptions/7.md.) -/
def Obligations.CallOpenIsRefusedLiveOrWaiting : Prop :=
  ∀ (l : Lane) (tag : Byte) (k : Nat) (zs : ZoneSet) (v : Int) (s : State),
    (k ≠ 1 → k ≠ 2 → k ≠ 3 → Refused s (.callOpen l tag k zs v) .malformed []) ∧
    ∀ cls : CallClass, k = cls.code →
      (zs = 0 → Refused s (.callOpen l tag k zs v) .outOfRange []) ∧
      (zs ≠ 0 → l ∈ s.calls.lanes → Refused s (.callOpen l tag k zs v) .busy []) ∧
      (zs ≠ 0 → l ∉ s.calls.lanes →
        let c : Call := ⟨l, s.calls.arrival, cls, zs, max (-900) (min 120 v)⟩
        let arrival := if s.calls.arrival = 65535 then 1 else s.calls.arrival + 1
        let clamped := flag (decide (v < -900 ∨ 120 < v))
        (s.calls.live = none →
          ∃ t, exec (.callOpen l tag k zs v) s = .next t ∧ MadeLive s t 0 c s.record ∧
            t.calls = { live := t.calls.live, waiting := s.calls.waiting, arrival := arrival } ∧
            Answered s t (.callOpen l tag k zs v) .ok (be 2 s.calls.arrival ++ [1, 0, 0, clamped]) [.call] ∧
            t = { s with lanes := t.lanes, zones := t.zones, calls := t.calls, record := t.record }) ∧
        (∀ x, s.calls.live = some x → cls = .showStop → x.call.cls ≠ .showStop →
          ∃ t, exec (.callOpen l tag k zs v) s = .next t ∧
            MadeLive s t x.call.zones c (endedRecord s x .preempted) ∧
            t.calls = { live := t.calls.live, waiting := s.calls.waiting, arrival := arrival } ∧
            Answered s t (.callOpen l tag k zs v) .ok (be 2 s.calls.arrival ++ [1, 0, 0, clamped]) [.call] ∧
            t = { s with lanes := t.lanes, zones := t.zones, calls := t.calls, record := t.record }) ∧
        (∀ x, s.calls.live = some x → (cls ≠ .showStop ∨ x.call.cls = .showStop) →
          ∃ t, exec (.callOpen l tag k zs v) s = .next t ∧
            t.calls = { s.calls with waiting := s.calls.waiting ++ [c], arrival := arrival } ∧
            Answered s t (.callOpen l tag k zs v) .ok
              (be 2 s.calls.arrival ++ [2, 1] ++
                be 1 (s.calls.waiting.filter fun d => decide (cls.rank ≤ d.cls.rank)).length ++ [clamped]) [.call] ∧
            t = { s with lanes := t.lanes, calls := t.calls }))

/-- CALL CLOSE and CALL_TIMEOUT: a live call ends and the next in grant order is live; a waiting call is withdrawn. CALL CLOSE
from the live call's lane ends it CLOSED, CALL_TIMEOUT ends it TIMEOUT: its zones release and CALL_END is handed to the
record; with calls waiting, the one of the highest class, and of those the earliest, leaves the list and is live in the same
event, CALL_LIVE after CALL_END, zones it targets attacking from the duck they hold; CALL is added to every lane. CALL CLOSE
from a lane whose call waits withdraws it: it alone leaves the list and CALL is added to every lane, and nothing else
changes. From a lane with no call it is refused NOT_LIVE. The reply is OK with the outcome and the arrival number. The
outcome's character (ENDED 1, WITHDRAWN 2) is the model's choice (notes/assumptions/7.md). (6.4 The call queue; 6.3 Ducks
and ramps; notes/assumptions/7.md.) -/
def Obligations.CallsEndByCloseAndTimeout : Prop :=
  ∀ (l : Lane) (tag : Byte) (s : State),
    (∀ x, s.calls.live = some x → x.call.lane = l →
      (s.calls.waiting = [] →
        (∃ t, exec (.callClose l tag) s = .next t ∧ EndedAlone s t x .closed ∧
          t.calls = { live := t.calls.live, waiting := [], arrival := s.calls.arrival } ∧
          Answered s t (.callClose l tag) .ok (1 :: be 2 x.call.arrival) [.call] ∧
          t = { s with lanes := t.lanes, zones := t.zones, calls := t.calls, record := t.record }) ∧
        (∃ t, exec .callTimeout s = .next t ∧ EndedAlone s t x .timeout ∧
          t.calls = { live := t.calls.live, waiting := [], arrival := s.calls.arrival } ∧ Noticed s t [.call] ∧
          t = { s with lanes := t.lanes, zones := t.zones, calls := t.calls, record := t.record })) ∧
      (∀ before b after, GrantedOf s.calls.waiting before b after →
        (∃ t, exec (.callClose l tag) s = .next t ∧ MadeLive s t x.call.zones b (endedRecord s x .closed) ∧
          t.calls = { live := t.calls.live, waiting := before ++ after, arrival := s.calls.arrival } ∧
          Answered s t (.callClose l tag) .ok (1 :: be 2 x.call.arrival) [.call] ∧
          t = { s with lanes := t.lanes, zones := t.zones, calls := t.calls, record := t.record }) ∧
        (∃ t, exec .callTimeout s = .next t ∧ MadeLive s t x.call.zones b (endedRecord s x .timeout) ∧
          t.calls = { live := t.calls.live, waiting := before ++ after, arrival := s.calls.arrival } ∧ Noticed s t [.call] ∧
          t = { s with lanes := t.lanes, zones := t.zones, calls := t.calls, record := t.record }))) ∧
    (∀ before b after, s.calls.waiting = before ++ b :: after → b.lane = l → (∀ d ∈ before, d.lane ≠ l) →
      (∀ x, s.calls.live = some x → x.call.lane ≠ l) →
      ∃ t, exec (.callClose l tag) s = .next t ∧
        Answered s t (.callClose l tag) .ok (2 :: be 2 b.arrival) [.call] ∧
        t = { s with lanes := t.lanes, calls := { s.calls with waiting := before ++ after } }) ∧
    (l ∉ s.calls.lanes → Refused s (.callClose l tag) .notLive [])

/-- DUCK_RAMP_ADVANCE and DUCK_RAMP_END: each duck is d0 + (dT − d0) × t / Tr rounded down, and ends at dT. After
DUCK_RAMP_ADVANCE each ramp that does not reach its time has its elapsed time raised by 1 and its zone's duck at d0 plus (dT
− d0) × t / Tr rounded down; one that reaches it is NONE with the duck at the target; a zone without a ramp is unchanged.
After DUCK_RAMP_END of a zone with a ramp its duck is the target and its ramp NONE, and every other zone is unchanged. Route
and targeted flag are kept and nothing else changes. That value lies between d0 and dT, is d0 at 0 and dT at Tr, for every
Tr of at least 1. (6.3 Ducks and ramps.) -/
def Obligations.DuckRampsMoveByTheExactLine : Prop :=
  (∀ s : State, ∃ t, exec .duckRampAdvance s = .next t ∧ t = { s with zones := t.zones } ∧
    ∀ z, ((s.zone z).ramp = none → t.zone z = s.zone z) ∧
      ∀ r, (s.zone z).ramp = some r →
        (r.elapsed + 1 < r.time → t.zone z = { s.zone z with
          duck := r.start + ⌊(((r.target - r.start) * ((r.elapsed : ℤ) + 1) : ℤ) : ℚ) / (r.time : ℚ)⌋,
          ramp := some { r with elapsed := r.elapsed + 1 } }) ∧
        (r.time ≤ r.elapsed + 1 → t.zone z = { s.zone z with duck := r.target, ramp := none })) ∧
  (∀ (s : State) (z : Nat) (r : Ramp), z < 32 → (s.zone z).ramp = some r →
    ∃ t, exec (.duckRampEnd z) s = .next t ∧
      (∀ k, t.zone k = if k = z then { s.zone k with duck := r.target, ramp := none } else s.zone k) ∧
      t = { s with zones := t.zones }) ∧
  (∀ (d0 dT : Int) (e tr : Nat), 1 ≤ tr → e ≤ tr →
    rampDuck d0 dT e tr = d0 + ⌊(((dT - d0) * (e : ℤ) : ℤ) : ℚ) / (tr : ℚ)⌋ ∧
    min d0 dT ≤ rampDuck d0 dT e tr ∧ rampDuck d0 dT e tr ≤ max d0 dT ∧
    rampDuck d0 dT 0 tr = d0 ∧ rampDuck d0 dT tr tr = dT)

/-- WINDOW_END of a full window: every enabled zone's class, quiet count, SILENT and OVER, and the alarm changes in zone order.
With fewer than 4,800 frames in the window WINDOW_END changes nothing, since a window cannot be cut short. With 4,800 it
gives each enabled zone the class CLEARED, HELD or COUNTED; its quiet count rises (to 6000) at a COUNTED window below the
threshold and is 0 otherwise; SILENT clears at CLEARED and at COUNTED at or above threshold plus hysteresis, sets at COUNTED
below the threshold when the count is at the hold, and is kept otherwise; OVER sets with a saturated frame; class and peak
level are kept and measuring starts afresh. A disabled zone is unchanged. The changes, SILENT before OVER, in zone order,
are handed to the record, ALARM is added to every lane if there is one, the frame count is 0 and the fault-seen flag says
whether the clock is faulted. (7.3 The end of a window; 7.4 Reporting; 7.2 Windows.) -/
def Obligations.WindowEndFindsAndReports : Prop :=
  ∀ s : State, (s.watch.frames < 4800 → exec .windowEnd s = .next s) ∧
    (4800 ≤ s.watch.frames →
    ∃ t, exec .windowEnd s = .next t ∧ t.watch.frames = 0 ∧ t.watch.faultSeen = decide (s.audio.clock ≠ .good) ∧
      (∀ z, z < 32 →
        let w := s.watchZone z
        let cls : WindowClass :=
          if w.seenUnrouted then .cleared else if w.seenDucked ∨ s.watch.faultSeen then .held else .counted
        let quiet := if cls = .counted ∧ peakLevel w.peak < w.setup.threshold then min 6000 (w.quiet + 1) else 0
        t.watchZone z =
          if w.setup.enable then
            { setup := w.setup, quiet := quiet,
              silentAlarm := (match cls with
                | .cleared => false
                | .held => w.silentAlarm
                | .counted =>
                  if peakLevel w.peak < w.setup.threshold then w.silentAlarm || decide (w.setup.hold ≤ quiet)
                  else w.silentAlarm && decide (peakLevel w.peak < w.setup.threshold + w.setup.hysteresis)),
              overAlarm := w.overAlarm || decide (1 ≤ w.saturated),
              last := some ⟨cls, peakLevel w.peak⟩ }
          else w) ∧
      (let changes : Nat → List Detail := fun z =>
        let w := s.watchZone z
        (if w.silentAlarm = (t.watchZone z).silentAlarm then []
          else if w.silentAlarm then [.alarmClear false (if w.seenUnrouted then .deliberate else .signal)]
          else [.alarmSetSilent (peakLevel w.peak) w.setup.hold]) ++
        (if w.overAlarm = (t.watchZone z).overAlarm then [] else [.alarmSetOver w.saturated])
       t.record = (List.range 32).foldl
          (fun r z => (changes z).foldl (fun r d => r.hand .engine none (some z) d) r) s.record ∧
        Noticed s t (if (List.range 32).flatMap changes = [] then [] else [.alarm])) ∧
      t = { s with lanes := t.lanes, watch := t.watch, record := t.record })

/-- ALARMS ACK clears the set OVER alarms of the zones named, in ascending order. On Lane A or B an empty zone set is refused
OUT_OF_RANGE with nothing changed. Otherwise OVER is clear in each zone named and every other watch field is kept; for each
cleared zone in ascending order ALARM_CLEAR with the lane and the cause ACK is handed to the record, and ALARM is added to
every lane if any was cleared; the reply is OK with the number and the zones cleared; nothing else changes. (7.5
Acknowledging OVER.) -/
def Obligations.AlarmsAckClearsOver : Prop :=
  ∀ (l : Lane) (tag : Byte) (zs : ZoneSet) (s : State), l ≠ .p →
    (zs = 0 → Refused s (.alarmsAck l tag zs) .outOfRange []) ∧
    (zs ≠ 0 →
      let cleared := (List.range 32).filter fun z => zs.getLsbD z && (s.watchZone z).overAlarm
      ∃ t, exec (.alarmsAck l tag zs) s = .next t ∧
        (∀ z, t.watchZone z = if z ∈ cleared then { s.watchZone z with overAlarm := false } else s.watchZone z) ∧
        t.record = cleared.foldl (fun r z => r.hand (.lane l) none (some z) (.alarmClear true .ack)) s.record ∧
        Answered s t (.alarmsAck l tag zs) .ok (be 1 cleared.length ++ cleared.flatMap (be 1))
          (if cleared = [] then [] else [.alarm]) ∧
        t = { s with lanes := t.lanes, watch := { s.watch with zones := t.watch.zones }, record := t.record })

/-- The peak level of a window is 200 · log10(peak / 8,388,607) rounded down and clamped to −900..0. For every peak of at least
1 the peak level is 200 times the real logarithm to base 10 of peak / 8,388,607, rounded down and clamped to −900..0; that
of 0 is −900; the values of the manual's table hold. It is the peak level that a zone's finished window keeps and compares.
(R128.) -/
def Obligations.PeakLevelIsTheExactLogarithm : Prop :=
  (∀ n : Nat, 1 ≤ n → peakLevel n = max (-900) (min 0 ⌊200 * Real.logb 10 ((n : ℝ) / 8388607)⌋)) ∧ peakLevel 0 = -900 ∧
  [8388608, 8388607, 4194304, 838861, 66000, 15000, 11850, 11849, 9000, 8389, 8388, 7000, 5000, 1000, 269, 268].map peakLevel =
    [0, 0, -61, -200, -421, -550, -570, -571, -594, -600, -601, -616, -645, -785, -899, -900] ∧
  ∀ (w : WatchZone) (f : Bool), (w.ended f).last = some ⟨w.windowClass f, peakLevel w.peak⟩ ∧
    (w.ended f).silentAlarm = w.nextSilent (w.windowClass f) (peakLevel w.peak)

/-- ARM and DELAY_EXPIRY: refused in order, ARMED with its mode, or started. ARM: a mode code other than 1 and 2 is refused
MALFORMED, then a delay above 3,600,000 ms OUT_OF_RANGE, then any state but CLEAR NOT_PERMITTED, with nothing changed.
Otherwise the record is ARMED with the start mode, the show setup's log mode and the delay remaining; a delay of 0 starts
the performance in the same event: RUNNING at clock 0 with PERFORMANCE_START of that lane handed to it. PERFORMANCE is added
to every lane and the reply is OK with state, start mode and log mode. That CURTAIN takes any delay, to which it gives no
meaning, is the model's reading (notes/assumptions/8.md). DELAY_EXPIRY while ARMED in DELAY starts it with lane ENGINE.
Nothing else changes. (8.2 Arming and starting; notes/assumptions/8.md.) -/
def Obligations.PerformanceArmsAndStarts : Prop :=
  ∀ (l : Lane) (tag : Byte) (mode delay : Nat) (s : State),
    (mode ≠ 1 → mode ≠ 2 → Refused s (.arm l tag mode delay) .malformed []) ∧
    (mode = 2 → 3600000 < delay → Refused s (.arm l tag mode delay) .outOfRange []) ∧
    ((mode = 1 ∨ mode = 2 ∧ delay ≤ 3600000) →
      let m : StartMode := if mode = 1 then .curtain else .delay delay
      let logMode := s.store.showSetup.logMode
      let armed := { s.record with
        state := .armed, startMode := some m, logMode := some logMode, delayRemaining := if mode = 1 then 0 else delay }
      (s.record.state ≠ .clear → Refused s (.arm l tag mode delay) .notPermitted []) ∧
      (s.record.state = .clear → (mode = 1 ∨ 1 ≤ delay) →
        ∃ t, exec (.arm l tag mode delay) s = .next t ∧ t = { s with lanes := t.lanes, record := armed } ∧
          Answered s t (.arm l tag mode delay) .ok
            (2 :: be 1 mode ++ be 3 (if mode = 1 then 0 else delay) ++ be 1 logMode.code) [.performance]) ∧
      (s.record.state = .clear → mode = 2 → delay = 0 →
        ∃ t, exec (.arm l tag mode delay) s = .next t ∧
          t.record = { armed with state := .running, clock := 0 }.hand (.lane l) none none (.performanceStart (.delay 0)) ∧
          Answered s t (.arm l tag mode delay) .ok (3 :: be 1 2 ++ be 3 0 ++ be 1 logMode.code) [.performance] ∧
          t = { s with lanes := t.lanes, record := t.record })) ∧
    (∀ d, s.record.state = .armed → s.record.startMode = some (.delay d) →
      ∃ t, exec .delayExpiry s = .next t ∧
        t.record = { s.record with state := .running, clock := 0, delayRemaining := 0 }.hand .engine none none
          (.performanceStart (.delay d)) ∧
        Noticed s t [.performance] ∧ t = { s with lanes := t.lanes, record := t.record })

/-- INTERVAL BEGIN, INTERVAL END, FINISH, RECORD CLEAR and the performance clock. INTERVAL BEGIN in RUNNING with fewer than 4
intervals opens the next at the clock; with 4 it is FULL. INTERVAL END in INTERVAL closes the open one at the clock and
returns to RUNNING. FINISH in RUNNING or INTERVAL hands PERFORMANCE_END, closes an open interval and is FINISHED with the
clock kept; in ARMED it is FINISHED, never started, with nothing handed. RECORD CLEAR in FINISHED empties the record; in
CLEAR it is OK and changes nothing. In every other state each is NOT_PERMITTED and changes nothing. Each that is taken adds
PERFORMANCE to every lane and is answered OK with the fields of its rule. A millisecond raises the clock in RUNNING and
INTERVAL, to 99,999,999, and nothing else ever. One character for an interval's number is the model's choice
(notes/assumptions/32.md). The outcome's character (RECORD CLEAR: CLEARED 1, ALREADY_CLEAR 2) is the model's choice
(notes/assumptions/7.md). (8.3 The clock and the intervals; 8.4 Finishing and clearing; notes/assumptions/32.md;
notes/assumptions/7.md.) -/
def Obligations.PerformancePausesFinishesAndClears : Prop :=
  ∀ (l : Lane) (tag : Byte) (s : State),
    let r := s.record
    (r.state ≠ .running → Refused s (.intervalBegin l tag) .notPermitted []) ∧
    (r.state = .running → 4 ≤ r.intervals.length → Refused s (.intervalBegin l tag) .full []) ∧
    (r.state = .running → r.intervals.length < 4 →
      ∃ t, exec (.intervalBegin l tag) s = .next t ∧
        t.record = { r with state := .interval, intervals := r.intervals ++ [Interval.mk (r.intervals.length + 1) r.clock none] }.hand
          (.lane l) none none (.intervalBegin (r.intervals.length + 1)) ∧
        Answered s t (.intervalBegin l tag) .ok (be 1 (r.intervals.length + 1) ++ be 4 r.clock) [.performance] ∧
        t = { s with lanes := t.lanes, record := t.record }) ∧
    (r.state ≠ .interval → Refused s (.intervalEnd l tag) .notPermitted []) ∧
    (∀ closed n b, r.state = .interval → r.intervals = closed ++ [Interval.mk n b none] → (∀ x ∈ closed, x.endTime.isSome) →
      (∃ t, exec (.intervalEnd l tag) s = .next t ∧
        t.record = { r with state := .running, intervals := closed ++ [Interval.mk n b (some r.clock)] }.hand (.lane l) none none
          (.intervalEnd n (r.clock - b)) ∧
        Answered s t (.intervalEnd l tag) .ok (be 1 n ++ be 4 b ++ be 4 r.clock) [.performance] ∧
        t = { s with lanes := t.lanes, record := t.record }) ∧
      (∃ t, exec (.finish l tag) s = .next t ∧
        t.record = { r.hand (.lane l) none none (.performanceEnd r.intervals.length true) with
          state := .finished, intervals := closed ++ [Interval.mk n b (some r.clock)] } ∧
        Answered s t (.finish l tag) .ok (be 4 r.clock ++ be 1 r.intervals.length ++ [flag r.neverStarted]) [.performance] ∧
        t = { s with lanes := t.lanes, record := t.record })) ∧
    (r.state = .running → (∀ x ∈ r.intervals, x.endTime.isSome) →
      ∃ t, exec (.finish l tag) s = .next t ∧
        t.record = { r.hand (.lane l) none none (.performanceEnd r.intervals.length false) with state := .finished } ∧
        Answered s t (.finish l tag) .ok (be 4 r.clock ++ be 1 r.intervals.length ++ [flag r.neverStarted]) [.performance] ∧
        t = { s with lanes := t.lanes, record := t.record }) ∧
    (r.state = .armed →
      ∃ t, exec (.finish l tag) s = .next t ∧
        Answered s t (.finish l tag) .ok (be 4 r.clock ++ be 1 r.intervals.length ++ [1]) [.performance] ∧
        t = { s with lanes := t.lanes, record := { r with state := .finished, neverStarted := true, delayRemaining := 0 } }) ∧
    ((r.state = .clear ∨ r.state = .finished) → Refused s (.finish l tag) .notPermitted []) ∧
    (r.state = .finished →
      ∃ t, exec (.recordClear l tag) s = .next t ∧ Answered s t (.recordClear l tag) .ok [1] [.performance] ∧
        t = { s with lanes := t.lanes, record := State.reset.record }) ∧
    (r.state = .clear → ServedRead s (.recordClear l tag) [2]) ∧
    (r.state ≠ .finished → r.state ≠ .clear → Refused s (.recordClear l tag) .notPermitted []) ∧
    exec .performanceClockMillisecond s = .next { s with record := { r with
      clock := if r.state = .running ∨ r.state = .interval then min 99999999 (r.clock + 1) else r.clock } }

/-- POWER_ON and RESET_PIN: the state every block's rule gives, the one cause that differs, and every invariant. From every
state POWER_ON gives the state after power-on and RESET_PIN the same with cause PIN, the queue kept. There: every base is
OFF, every trim 0, no point in a slot, every slot FREE; the map is the identity, no mix masked; the clock ABSENT; no cue or
group; standby END, no last GO, no run, beat counter 0, lines IDLE; routes NONE, ducks 0, no ramp; no call, arrival counter
1; watch disabled, fault-seen set; the record CLEAR and empty; both buffers EMPTY; each lane high, idle, counters 0, notices
RESET alone; engine-reset count 0. It is Sound. One step for the pin, the line high and no audio frame held are the model's
choices (notes/assumptions/17.md, 25.md). (10.8 Resets of the engine; 1.1 Points; 2.2 The input map; 5.1 The runner across
resets; 6.1 Zone state and routing; 7.1 Watch state; 8.1 The record and its states; 9.1 The staging buffers;
notes/assumptions/17.md.) -/
def Obligations.PowerOnAndResetPinGiveTheirState : Prop :=
  let u := State.reset
  (∀ s : State, exec .powerOn s = .next { u with pending := s.pending } ∧
    exec .resetPin s = .next { u with causes := { pin := true }, pending := s.pending }) ∧
  (∀ p, u.point p = ⟨-900, 0, none⟩) ∧ (∀ k, u.slot k = none) ∧ (∀ k, k < 40 → u.inputMap.getD k 0 = k) ∧
  (∀ m, u.masks.getD m false = false) ∧ u.audio = ⟨.absent, 0, 0, 0, [], none⟩ ∧ u.store.cues = [] ∧
  (∀ g, u.store.group? g = none) ∧ (∀ z, u.zoneSetup z = ⟨200, false, -600, 30, 100, 1⟩) ∧
  u.store.showSetup = ⟨.wrap, 120, 150, 500, 1⟩ ∧ u.store.triggerSetup.editCount = 1 ∧
  (∀ n, n < 16 → u.store.triggerSetup.polarity.getD n .activeLow = .activeHigh) ∧
  u.runner.standby = none ∧ u.runner.lastGo = none ∧ u.runner.runs = [] ∧ u.runner.beatCounter = 0 ∧
  u.runner.lastBeat = none ∧ (∀ n, u.line n = .idle) ∧ (∀ z, u.zone z = ⟨none, 0, none, false⟩) ∧ u.calls = ⟨none, [], 1⟩ ∧
  (∀ z, u.watchZone z = ⟨⟨false, -600, 30, 100⟩, 0, 0, false, false, false, false, 0, none⟩) ∧ u.watch.frames = 0 ∧
  u.watch.faultSeen = true ∧ u.record = ⟨.clear, none, 0, none, false, 0, [], ⟨0, 0, 0, 0, 0, 0⟩, [], 0, 0⟩ ∧
  u.staging = ⟨none, none⟩ ∧ u.causes = ⟨true, false, false, none, 0⟩ ∧
  (∀ l, u.lanes.get l = ⟨.high, none, none, none, { reset := true }, 0, 0, 0, 0, 0⟩) ∧ Sound u

/-- ENGINE RESET and CAUSES CLEAR: what they end, what they keep, and what they report. ENGINE RESET on Lane A or B:
ENGINE_RESET with the numbers of runs, slots in use and waiting calls and the live call's number is handed to the record as
the engine stood; then no run is left, every line is IDLE, every slot FREE with bases and trims kept, no call live or
waiting, every duck 0 without ramp or targeting, every quiet count 0, both buffers EMPTY, every notice set RESET alone, and
the causes have ENGINE set, that lane, and a count raised by one (to 65,535); the reply is OK with the count. Standby, last
GO, beats, routes, masks, the map, the store, the alarms, the clock state, the time base and the lanes' counters and slots
are kept. CAUSES CLEAR answers with the record and clears it, and changes nothing else. (10.8 Resets of the engine; 5.1 The
runner across resets; 3.5 Freezing; 6.5 Calls across resets; 7.7 Faults and resets; 9.5 Buffers over time.) -/
def Obligations.EngineResetStopsMotionAndKeepsTheShow : Prop :=
  ∀ (l : Lane) (tag : Byte) (s : State), l ≠ .p →
    (∃ t, exec (.engineReset l tag) s = .next t ∧
      t.record = s.record.hand (.lane l) none none
        (.engineReset s.runner.runs.length ((List.range 32).filter fun k => (s.slot k).isSome).length s.calls.waiting.length
          (s.calls.live.map fun x => x.call.arrival)) ∧
      t.runner = { s.runner with runs := [], lines := t.runner.lines } ∧ (∀ n, t.line n = .idle) ∧ (∀ k, t.slot k = none) ∧
      (∀ p, t.point p = { s.point p with membership := none }) ∧ t.calls = ⟨none, [], s.calls.arrival⟩ ∧
      (∀ z, t.zone z = ⟨(s.zone z).route, 0, none, false⟩) ∧
      (∀ z, t.watchZone z = { s.watchZone z with quiet := 0 }) ∧
      t.causes = { s.causes with engine := true, lane := some l, count := min 65535 (s.causes.count + 1) } ∧
      (∀ m, t.lanes.get m =
        if m = l then { s.lanes.get m with
          notices := { reset := true }, slot := some ⟨tag, 0x60, []⟩,
          reply := some (replyChars tag .ok (be 2 (min 65535 (s.causes.count + 1)))) }
        else { s.lanes.get m with notices := { reset := true } }) ∧
      t = { s with
        lanes := t.lanes, points := t.points, slots := t.slots, runner := t.runner, zones := t.zones, calls := t.calls,
        watch := { s.watch with zones := t.watch.zones }, record := t.record, staging := ⟨none, none⟩, causes := t.causes }) ∧
    (∃ t, exec (.causesClear l tag) s = .next t ∧
      Answered s t (.causesClear l tag) .ok
        ([flag s.causes.power, flag s.causes.pin, flag s.causes.engine]
          ++ be 1 (match s.causes.lane with | none => 0 | some .a => 1 | some .b => 2 | some .p => 3) ++ be 2 s.causes.count) [] ∧
      t = { s with lanes := t.lanes, causes := ⟨false, false, false, none, 0⟩ })

/-- Every step keeps the input map a permutation of the 40 inputs and every base and trim in its range. From every state in
which the input map is a permutation of 0 to 39, every base lies in −900..+120 and every trim in −600..+120, whatever
command waits at the front or none, a step that answers a next state gives one in which they are so. (2.2 The input map; 1.1
Points.) -/
def Obligations.MapAndLevelsStayInRange : Prop :=
  ∀ s t : State, MapOk s → LevelsOk s → step s = .next t → MapOk t ∧ LevelsOk t

/-- Every step keeps the stack in order, standby END or of the stack, and at most 16 runs, no cue twice. From every state in
which the cue stack is in strictly ascending number order, standby is END or a cue of it, and the run list holds at most 16
runs and no cue twice, whatever command waits at the front or none, a step that answers a next state gives one in which all
of this holds. (4.1 The cue record; 4.8 Standby and the stack; 5.4 Runs.) -/
def Obligations.StandbyIsOfTheStackAndRunsAreDistinct : Prop :=
  ∀ s t : State, StackOk s → RunsOk s → step s = .next t → StackOk t ∧ RunsOk t

/-- Every step keeps one call per lane, nothing waiting without a live call, and zones targeted exactly by the live call. From
every state in which no lane has two calls live or waiting, the waiting list is empty whenever no call is live, and each
zone's targeted flag is set exactly while the live call's zone set holds it, whatever command waits at the front or none, a
step that answers a next state gives one in which all of this holds. (6.4 The call queue.) -/
def Obligations.CallsStayOnePerLane : Prop :=
  ∀ s t : State, CallsOk s → step s = .next t → CallsOk t

/-- Every step keeps the log's sequence without a gap and every counter within its width. From every state in which the log
keeps the latest entries, at most 2048, numbered without a gap up to written − 1 (in HOLD mode the first 2048 alone),
written is 0 in CLEAR, the six counters and lost are at most 65,535, the clock at most 99,999,999 and every lane's counters
at most 255, whatever command waits at the front or none, a step that answers a next state gives one in which all of this
holds. (8.7 The log; 8.6 Counters; 8.3 The clock and the intervals; 10.1 Characters and frames.) -/
def Obligations.LogAndCountersStayInOrder : Prop :=
  ∀ s t : State, RecordOk s → LanesOk s → step s = .next t → RecordOk t ∧ LanesOk t

/-- Every step keeps each point in the slot its membership names, no slot empty, and the pool within its 1024 entries. From
every state in which a point's fade membership names exactly the slot whose member list holds it, every slot in use has a
member, and the members of all slots are at most 1024, whatever command waits at the front or none, a step that answers a
next state gives one in which all of this holds. (3.1 Slots and the member pool.) -/
def Obligations.MembershipsAndSlotsAgree : Prop :=
  ∀ s t : State, FadesOk s → step s = .next t → FadesOk t
end

