-- ==== Sys2Proof/Laws/State.lean ====
section
/-! SUPPORT. For each update of the state, the fields it leaves as they stand: one lemma for each field, each true by
computation. Provers rewrite with them in place of unfolding an update. -/

namespace Sys2Proof.Machine

/-! ### onLane -/

@[simp] theorem State.onLane_points (s : State) (l : Lane) (f : LaneState → LaneState) :
    (s.onLane l f).points = s.points := rfl
@[simp] theorem State.onLane_inputMap (s : State) (l : Lane) (f : LaneState → LaneState) :
    (s.onLane l f).inputMap = s.inputMap := rfl
@[simp] theorem State.onLane_masks (s : State) (l : Lane) (f : LaneState → LaneState) :
    (s.onLane l f).masks = s.masks := rfl
@[simp] theorem State.onLane_audio (s : State) (l : Lane) (f : LaneState → LaneState) :
    (s.onLane l f).audio = s.audio := rfl
@[simp] theorem State.onLane_slots (s : State) (l : Lane) (f : LaneState → LaneState) :
    (s.onLane l f).slots = s.slots := rfl
@[simp] theorem State.onLane_store (s : State) (l : Lane) (f : LaneState → LaneState) :
    (s.onLane l f).store = s.store := rfl
@[simp] theorem State.onLane_runner (s : State) (l : Lane) (f : LaneState → LaneState) :
    (s.onLane l f).runner = s.runner := rfl
@[simp] theorem State.onLane_zones (s : State) (l : Lane) (f : LaneState → LaneState) :
    (s.onLane l f).zones = s.zones := rfl
@[simp] theorem State.onLane_calls (s : State) (l : Lane) (f : LaneState → LaneState) :
    (s.onLane l f).calls = s.calls := rfl
@[simp] theorem State.onLane_watch (s : State) (l : Lane) (f : LaneState → LaneState) :
    (s.onLane l f).watch = s.watch := rfl
@[simp] theorem State.onLane_record (s : State) (l : Lane) (f : LaneState → LaneState) :
    (s.onLane l f).record = s.record := rfl
@[simp] theorem State.onLane_staging (s : State) (l : Lane) (f : LaneState → LaneState) :
    (s.onLane l f).staging = s.staging := rfl
@[simp] theorem State.onLane_causes (s : State) (l : Lane) (f : LaneState → LaneState) :
    (s.onLane l f).causes = s.causes := rfl
@[simp] theorem State.onLane_timeBase (s : State) (l : Lane) (f : LaneState → LaneState) :
    (s.onLane l f).timeBase = s.timeBase := rfl
@[simp] theorem State.onLane_pending (s : State) (l : Lane) (f : LaneState → LaneState) :
    (s.onLane l f).pending = s.pending := rfl

/-! ### received -/

@[simp] theorem State.received_points (s : State) (l : Lane) (f : LaneState → LaneState) :
    (s.received l f).points = s.points := rfl
@[simp] theorem State.received_inputMap (s : State) (l : Lane) (f : LaneState → LaneState) :
    (s.received l f).inputMap = s.inputMap := rfl
@[simp] theorem State.received_masks (s : State) (l : Lane) (f : LaneState → LaneState) :
    (s.received l f).masks = s.masks := rfl
@[simp] theorem State.received_audio (s : State) (l : Lane) (f : LaneState → LaneState) :
    (s.received l f).audio = s.audio := rfl
@[simp] theorem State.received_slots (s : State) (l : Lane) (f : LaneState → LaneState) :
    (s.received l f).slots = s.slots := rfl
@[simp] theorem State.received_store (s : State) (l : Lane) (f : LaneState → LaneState) :
    (s.received l f).store = s.store := rfl
@[simp] theorem State.received_runner (s : State) (l : Lane) (f : LaneState → LaneState) :
    (s.received l f).runner = s.runner := rfl
@[simp] theorem State.received_zones (s : State) (l : Lane) (f : LaneState → LaneState) :
    (s.received l f).zones = s.zones := rfl
@[simp] theorem State.received_calls (s : State) (l : Lane) (f : LaneState → LaneState) :
    (s.received l f).calls = s.calls := rfl
@[simp] theorem State.received_watch (s : State) (l : Lane) (f : LaneState → LaneState) :
    (s.received l f).watch = s.watch := rfl
@[simp] theorem State.received_record (s : State) (l : Lane) (f : LaneState → LaneState) :
    (s.received l f).record = s.record := rfl
@[simp] theorem State.received_staging (s : State) (l : Lane) (f : LaneState → LaneState) :
    (s.received l f).staging = s.staging := rfl
@[simp] theorem State.received_causes (s : State) (l : Lane) (f : LaneState → LaneState) :
    (s.received l f).causes = s.causes := rfl
@[simp] theorem State.received_timeBase (s : State) (l : Lane) (f : LaneState → LaneState) :
    (s.received l f).timeBase = s.timeBase := rfl
@[simp] theorem State.received_pending (s : State) (l : Lane) (f : LaneState → LaneState) :
    (s.received l f).pending = s.pending := rfl

/-! ### onPoint -/

@[simp] theorem State.onPoint_lanes (s : State) (p : Nat) (f : Point → Point) :
    (s.onPoint p f).lanes = s.lanes := rfl
@[simp] theorem State.onPoint_inputMap (s : State) (p : Nat) (f : Point → Point) :
    (s.onPoint p f).inputMap = s.inputMap := rfl
@[simp] theorem State.onPoint_masks (s : State) (p : Nat) (f : Point → Point) :
    (s.onPoint p f).masks = s.masks := rfl
@[simp] theorem State.onPoint_audio (s : State) (p : Nat) (f : Point → Point) :
    (s.onPoint p f).audio = s.audio := rfl
@[simp] theorem State.onPoint_slots (s : State) (p : Nat) (f : Point → Point) :
    (s.onPoint p f).slots = s.slots := rfl
@[simp] theorem State.onPoint_store (s : State) (p : Nat) (f : Point → Point) :
    (s.onPoint p f).store = s.store := rfl
@[simp] theorem State.onPoint_runner (s : State) (p : Nat) (f : Point → Point) :
    (s.onPoint p f).runner = s.runner := rfl
@[simp] theorem State.onPoint_zones (s : State) (p : Nat) (f : Point → Point) :
    (s.onPoint p f).zones = s.zones := rfl
@[simp] theorem State.onPoint_calls (s : State) (p : Nat) (f : Point → Point) :
    (s.onPoint p f).calls = s.calls := rfl
@[simp] theorem State.onPoint_watch (s : State) (p : Nat) (f : Point → Point) :
    (s.onPoint p f).watch = s.watch := rfl
@[simp] theorem State.onPoint_record (s : State) (p : Nat) (f : Point → Point) :
    (s.onPoint p f).record = s.record := rfl
@[simp] theorem State.onPoint_staging (s : State) (p : Nat) (f : Point → Point) :
    (s.onPoint p f).staging = s.staging := rfl
@[simp] theorem State.onPoint_causes (s : State) (p : Nat) (f : Point → Point) :
    (s.onPoint p f).causes = s.causes := rfl
@[simp] theorem State.onPoint_timeBase (s : State) (p : Nat) (f : Point → Point) :
    (s.onPoint p f).timeBase = s.timeBase := rfl
@[simp] theorem State.onPoint_pending (s : State) (p : Nat) (f : Point → Point) :
    (s.onPoint p f).pending = s.pending := rfl

/-! ### setBase -/

@[simp] theorem State.setBase_lanes (s : State) (p : Nat) (x : Int) :
    (s.setBase p x).lanes = s.lanes := rfl
@[simp] theorem State.setBase_inputMap (s : State) (p : Nat) (x : Int) :
    (s.setBase p x).inputMap = s.inputMap := rfl
@[simp] theorem State.setBase_masks (s : State) (p : Nat) (x : Int) :
    (s.setBase p x).masks = s.masks := rfl
@[simp] theorem State.setBase_audio (s : State) (p : Nat) (x : Int) :
    (s.setBase p x).audio = s.audio := rfl
@[simp] theorem State.setBase_slots (s : State) (p : Nat) (x : Int) :
    (s.setBase p x).slots = s.slots := rfl
@[simp] theorem State.setBase_store (s : State) (p : Nat) (x : Int) :
    (s.setBase p x).store = s.store := rfl
@[simp] theorem State.setBase_runner (s : State) (p : Nat) (x : Int) :
    (s.setBase p x).runner = s.runner := rfl
@[simp] theorem State.setBase_zones (s : State) (p : Nat) (x : Int) :
    (s.setBase p x).zones = s.zones := rfl
@[simp] theorem State.setBase_calls (s : State) (p : Nat) (x : Int) :
    (s.setBase p x).calls = s.calls := rfl
@[simp] theorem State.setBase_watch (s : State) (p : Nat) (x : Int) :
    (s.setBase p x).watch = s.watch := rfl
@[simp] theorem State.setBase_record (s : State) (p : Nat) (x : Int) :
    (s.setBase p x).record = s.record := rfl
@[simp] theorem State.setBase_staging (s : State) (p : Nat) (x : Int) :
    (s.setBase p x).staging = s.staging := rfl
@[simp] theorem State.setBase_causes (s : State) (p : Nat) (x : Int) :
    (s.setBase p x).causes = s.causes := rfl
@[simp] theorem State.setBase_timeBase (s : State) (p : Nat) (x : Int) :
    (s.setBase p x).timeBase = s.timeBase := rfl
@[simp] theorem State.setBase_pending (s : State) (p : Nat) (x : Int) :
    (s.setBase p x).pending = s.pending := rfl

/-! ### setTrim -/

@[simp] theorem State.setTrim_lanes (s : State) (p : Nat) (x : Int) :
    (s.setTrim p x).lanes = s.lanes := rfl
@[simp] theorem State.setTrim_inputMap (s : State) (p : Nat) (x : Int) :
    (s.setTrim p x).inputMap = s.inputMap := rfl
@[simp] theorem State.setTrim_masks (s : State) (p : Nat) (x : Int) :
    (s.setTrim p x).masks = s.masks := rfl
@[simp] theorem State.setTrim_audio (s : State) (p : Nat) (x : Int) :
    (s.setTrim p x).audio = s.audio := rfl
@[simp] theorem State.setTrim_slots (s : State) (p : Nat) (x : Int) :
    (s.setTrim p x).slots = s.slots := rfl
@[simp] theorem State.setTrim_store (s : State) (p : Nat) (x : Int) :
    (s.setTrim p x).store = s.store := rfl
@[simp] theorem State.setTrim_runner (s : State) (p : Nat) (x : Int) :
    (s.setTrim p x).runner = s.runner := rfl
@[simp] theorem State.setTrim_zones (s : State) (p : Nat) (x : Int) :
    (s.setTrim p x).zones = s.zones := rfl
@[simp] theorem State.setTrim_calls (s : State) (p : Nat) (x : Int) :
    (s.setTrim p x).calls = s.calls := rfl
@[simp] theorem State.setTrim_watch (s : State) (p : Nat) (x : Int) :
    (s.setTrim p x).watch = s.watch := rfl
@[simp] theorem State.setTrim_record (s : State) (p : Nat) (x : Int) :
    (s.setTrim p x).record = s.record := rfl
@[simp] theorem State.setTrim_staging (s : State) (p : Nat) (x : Int) :
    (s.setTrim p x).staging = s.staging := rfl
@[simp] theorem State.setTrim_causes (s : State) (p : Nat) (x : Int) :
    (s.setTrim p x).causes = s.causes := rfl
@[simp] theorem State.setTrim_timeBase (s : State) (p : Nat) (x : Int) :
    (s.setTrim p x).timeBase = s.timeBase := rfl
@[simp] theorem State.setTrim_pending (s : State) (p : Nat) (x : Int) :
    (s.setTrim p x).pending = s.pending := rfl

/-! ### setMembership -/

@[simp] theorem State.setMembership_lanes (s : State) (p : Nat) (k : Option Nat) :
    (s.setMembership p k).lanes = s.lanes := rfl
@[simp] theorem State.setMembership_inputMap (s : State) (p : Nat) (k : Option Nat) :
    (s.setMembership p k).inputMap = s.inputMap := rfl
@[simp] theorem State.setMembership_masks (s : State) (p : Nat) (k : Option Nat) :
    (s.setMembership p k).masks = s.masks := rfl
@[simp] theorem State.setMembership_audio (s : State) (p : Nat) (k : Option Nat) :
    (s.setMembership p k).audio = s.audio := rfl
@[simp] theorem State.setMembership_slots (s : State) (p : Nat) (k : Option Nat) :
    (s.setMembership p k).slots = s.slots := rfl
@[simp] theorem State.setMembership_store (s : State) (p : Nat) (k : Option Nat) :
    (s.setMembership p k).store = s.store := rfl
@[simp] theorem State.setMembership_runner (s : State) (p : Nat) (k : Option Nat) :
    (s.setMembership p k).runner = s.runner := rfl
@[simp] theorem State.setMembership_zones (s : State) (p : Nat) (k : Option Nat) :
    (s.setMembership p k).zones = s.zones := rfl
@[simp] theorem State.setMembership_calls (s : State) (p : Nat) (k : Option Nat) :
    (s.setMembership p k).calls = s.calls := rfl
@[simp] theorem State.setMembership_watch (s : State) (p : Nat) (k : Option Nat) :
    (s.setMembership p k).watch = s.watch := rfl
@[simp] theorem State.setMembership_record (s : State) (p : Nat) (k : Option Nat) :
    (s.setMembership p k).record = s.record := rfl
@[simp] theorem State.setMembership_staging (s : State) (p : Nat) (k : Option Nat) :
    (s.setMembership p k).staging = s.staging := rfl
@[simp] theorem State.setMembership_causes (s : State) (p : Nat) (k : Option Nat) :
    (s.setMembership p k).causes = s.causes := rfl
@[simp] theorem State.setMembership_timeBase (s : State) (p : Nat) (k : Option Nat) :
    (s.setMembership p k).timeBase = s.timeBase := rfl
@[simp] theorem State.setMembership_pending (s : State) (p : Nat) (k : Option Nat) :
    (s.setMembership p k).pending = s.pending := rfl

/-! ### nudgePoint -/

@[simp] theorem State.nudgePoint_lanes (s : State) (d : Int) (p : Nat) :
    (s.nudgePoint d p).lanes = s.lanes := rfl
@[simp] theorem State.nudgePoint_inputMap (s : State) (d : Int) (p : Nat) :
    (s.nudgePoint d p).inputMap = s.inputMap := rfl
@[simp] theorem State.nudgePoint_masks (s : State) (d : Int) (p : Nat) :
    (s.nudgePoint d p).masks = s.masks := rfl
@[simp] theorem State.nudgePoint_audio (s : State) (d : Int) (p : Nat) :
    (s.nudgePoint d p).audio = s.audio := rfl
@[simp] theorem State.nudgePoint_slots (s : State) (d : Int) (p : Nat) :
    (s.nudgePoint d p).slots = s.slots := rfl
@[simp] theorem State.nudgePoint_store (s : State) (d : Int) (p : Nat) :
    (s.nudgePoint d p).store = s.store := rfl
@[simp] theorem State.nudgePoint_runner (s : State) (d : Int) (p : Nat) :
    (s.nudgePoint d p).runner = s.runner := rfl
@[simp] theorem State.nudgePoint_zones (s : State) (d : Int) (p : Nat) :
    (s.nudgePoint d p).zones = s.zones := rfl
@[simp] theorem State.nudgePoint_calls (s : State) (d : Int) (p : Nat) :
    (s.nudgePoint d p).calls = s.calls := rfl
@[simp] theorem State.nudgePoint_watch (s : State) (d : Int) (p : Nat) :
    (s.nudgePoint d p).watch = s.watch := rfl
@[simp] theorem State.nudgePoint_record (s : State) (d : Int) (p : Nat) :
    (s.nudgePoint d p).record = s.record := rfl
@[simp] theorem State.nudgePoint_staging (s : State) (d : Int) (p : Nat) :
    (s.nudgePoint d p).staging = s.staging := rfl
@[simp] theorem State.nudgePoint_causes (s : State) (d : Int) (p : Nat) :
    (s.nudgePoint d p).causes = s.causes := rfl
@[simp] theorem State.nudgePoint_timeBase (s : State) (d : Int) (p : Nat) :
    (s.nudgePoint d p).timeBase = s.timeBase := rfl
@[simp] theorem State.nudgePoint_pending (s : State) (d : Int) (p : Nat) :
    (s.nudgePoint d p).pending = s.pending := rfl

/-! ### setSlot -/

@[simp] theorem State.setSlot_lanes (s : State) (k : Nat) (v : Option FadeSlot) :
    (s.setSlot k v).lanes = s.lanes := rfl
@[simp] theorem State.setSlot_points (s : State) (k : Nat) (v : Option FadeSlot) :
    (s.setSlot k v).points = s.points := rfl
@[simp] theorem State.setSlot_inputMap (s : State) (k : Nat) (v : Option FadeSlot) :
    (s.setSlot k v).inputMap = s.inputMap := rfl
@[simp] theorem State.setSlot_masks (s : State) (k : Nat) (v : Option FadeSlot) :
    (s.setSlot k v).masks = s.masks := rfl
@[simp] theorem State.setSlot_audio (s : State) (k : Nat) (v : Option FadeSlot) :
    (s.setSlot k v).audio = s.audio := rfl
@[simp] theorem State.setSlot_store (s : State) (k : Nat) (v : Option FadeSlot) :
    (s.setSlot k v).store = s.store := rfl
@[simp] theorem State.setSlot_runner (s : State) (k : Nat) (v : Option FadeSlot) :
    (s.setSlot k v).runner = s.runner := rfl
@[simp] theorem State.setSlot_zones (s : State) (k : Nat) (v : Option FadeSlot) :
    (s.setSlot k v).zones = s.zones := rfl
@[simp] theorem State.setSlot_calls (s : State) (k : Nat) (v : Option FadeSlot) :
    (s.setSlot k v).calls = s.calls := rfl
@[simp] theorem State.setSlot_watch (s : State) (k : Nat) (v : Option FadeSlot) :
    (s.setSlot k v).watch = s.watch := rfl
@[simp] theorem State.setSlot_record (s : State) (k : Nat) (v : Option FadeSlot) :
    (s.setSlot k v).record = s.record := rfl
@[simp] theorem State.setSlot_staging (s : State) (k : Nat) (v : Option FadeSlot) :
    (s.setSlot k v).staging = s.staging := rfl
@[simp] theorem State.setSlot_causes (s : State) (k : Nat) (v : Option FadeSlot) :
    (s.setSlot k v).causes = s.causes := rfl
@[simp] theorem State.setSlot_timeBase (s : State) (k : Nat) (v : Option FadeSlot) :
    (s.setSlot k v).timeBase = s.timeBase := rfl
@[simp] theorem State.setSlot_pending (s : State) (k : Nat) (v : Option FadeSlot) :
    (s.setSlot k v).pending = s.pending := rfl

/-! ### freezeFades -/

@[simp] theorem State.freezeFades_lanes (s : State) :
    (s.freezeFades).lanes = s.lanes := rfl
@[simp] theorem State.freezeFades_inputMap (s : State) :
    (s.freezeFades).inputMap = s.inputMap := rfl
@[simp] theorem State.freezeFades_masks (s : State) :
    (s.freezeFades).masks = s.masks := rfl
@[simp] theorem State.freezeFades_audio (s : State) :
    (s.freezeFades).audio = s.audio := rfl
@[simp] theorem State.freezeFades_store (s : State) :
    (s.freezeFades).store = s.store := rfl
@[simp] theorem State.freezeFades_runner (s : State) :
    (s.freezeFades).runner = s.runner := rfl
@[simp] theorem State.freezeFades_zones (s : State) :
    (s.freezeFades).zones = s.zones := rfl
@[simp] theorem State.freezeFades_calls (s : State) :
    (s.freezeFades).calls = s.calls := rfl
@[simp] theorem State.freezeFades_watch (s : State) :
    (s.freezeFades).watch = s.watch := rfl
@[simp] theorem State.freezeFades_record (s : State) :
    (s.freezeFades).record = s.record := rfl
@[simp] theorem State.freezeFades_staging (s : State) :
    (s.freezeFades).staging = s.staging := rfl
@[simp] theorem State.freezeFades_causes (s : State) :
    (s.freezeFades).causes = s.causes := rfl
@[simp] theorem State.freezeFades_timeBase (s : State) :
    (s.freezeFades).timeBase = s.timeBase := rfl
@[simp] theorem State.freezeFades_pending (s : State) :
    (s.freezeFades).pending = s.pending := rfl

/-! ### orphan -/

@[simp] theorem State.orphan_lanes (s : State) (c : Nat) :
    (s.orphan c).lanes = s.lanes := rfl
@[simp] theorem State.orphan_points (s : State) (c : Nat) :
    (s.orphan c).points = s.points := rfl
@[simp] theorem State.orphan_inputMap (s : State) (c : Nat) :
    (s.orphan c).inputMap = s.inputMap := rfl
@[simp] theorem State.orphan_masks (s : State) (c : Nat) :
    (s.orphan c).masks = s.masks := rfl
@[simp] theorem State.orphan_audio (s : State) (c : Nat) :
    (s.orphan c).audio = s.audio := rfl
@[simp] theorem State.orphan_store (s : State) (c : Nat) :
    (s.orphan c).store = s.store := rfl
@[simp] theorem State.orphan_runner (s : State) (c : Nat) :
    (s.orphan c).runner = s.runner := rfl
@[simp] theorem State.orphan_zones (s : State) (c : Nat) :
    (s.orphan c).zones = s.zones := rfl
@[simp] theorem State.orphan_calls (s : State) (c : Nat) :
    (s.orphan c).calls = s.calls := rfl
@[simp] theorem State.orphan_watch (s : State) (c : Nat) :
    (s.orphan c).watch = s.watch := rfl
@[simp] theorem State.orphan_record (s : State) (c : Nat) :
    (s.orphan c).record = s.record := rfl
@[simp] theorem State.orphan_staging (s : State) (c : Nat) :
    (s.orphan c).staging = s.staging := rfl
@[simp] theorem State.orphan_causes (s : State) (c : Nat) :
    (s.orphan c).causes = s.causes := rfl
@[simp] theorem State.orphan_timeBase (s : State) (c : Nat) :
    (s.orphan c).timeBase = s.timeBase := rfl
@[simp] theorem State.orphan_pending (s : State) (c : Nat) :
    (s.orphan c).pending = s.pending := rfl

/-! ### onZone -/

@[simp] theorem State.onZone_lanes (s : State) (z : Nat) (f : Zone → Zone) :
    (s.onZone z f).lanes = s.lanes := rfl
@[simp] theorem State.onZone_points (s : State) (z : Nat) (f : Zone → Zone) :
    (s.onZone z f).points = s.points := rfl
@[simp] theorem State.onZone_inputMap (s : State) (z : Nat) (f : Zone → Zone) :
    (s.onZone z f).inputMap = s.inputMap := rfl
@[simp] theorem State.onZone_masks (s : State) (z : Nat) (f : Zone → Zone) :
    (s.onZone z f).masks = s.masks := rfl
@[simp] theorem State.onZone_audio (s : State) (z : Nat) (f : Zone → Zone) :
    (s.onZone z f).audio = s.audio := rfl
@[simp] theorem State.onZone_slots (s : State) (z : Nat) (f : Zone → Zone) :
    (s.onZone z f).slots = s.slots := rfl
@[simp] theorem State.onZone_store (s : State) (z : Nat) (f : Zone → Zone) :
    (s.onZone z f).store = s.store := rfl
@[simp] theorem State.onZone_runner (s : State) (z : Nat) (f : Zone → Zone) :
    (s.onZone z f).runner = s.runner := rfl
@[simp] theorem State.onZone_calls (s : State) (z : Nat) (f : Zone → Zone) :
    (s.onZone z f).calls = s.calls := rfl
@[simp] theorem State.onZone_watch (s : State) (z : Nat) (f : Zone → Zone) :
    (s.onZone z f).watch = s.watch := rfl
@[simp] theorem State.onZone_record (s : State) (z : Nat) (f : Zone → Zone) :
    (s.onZone z f).record = s.record := rfl
@[simp] theorem State.onZone_staging (s : State) (z : Nat) (f : Zone → Zone) :
    (s.onZone z f).staging = s.staging := rfl
@[simp] theorem State.onZone_causes (s : State) (z : Nat) (f : Zone → Zone) :
    (s.onZone z f).causes = s.causes := rfl
@[simp] theorem State.onZone_timeBase (s : State) (z : Nat) (f : Zone → Zone) :
    (s.onZone z f).timeBase = s.timeBase := rfl
@[simp] theorem State.onZone_pending (s : State) (z : Nat) (f : Zone → Zone) :
    (s.onZone z f).pending = s.pending := rfl

/-! ### setRoute -/

@[simp] theorem State.setRoute_lanes (s : State) (z : Nat) (m : Option Nat) :
    (s.setRoute z m).lanes = s.lanes := rfl
@[simp] theorem State.setRoute_points (s : State) (z : Nat) (m : Option Nat) :
    (s.setRoute z m).points = s.points := rfl
@[simp] theorem State.setRoute_inputMap (s : State) (z : Nat) (m : Option Nat) :
    (s.setRoute z m).inputMap = s.inputMap := rfl
@[simp] theorem State.setRoute_masks (s : State) (z : Nat) (m : Option Nat) :
    (s.setRoute z m).masks = s.masks := rfl
@[simp] theorem State.setRoute_audio (s : State) (z : Nat) (m : Option Nat) :
    (s.setRoute z m).audio = s.audio := rfl
@[simp] theorem State.setRoute_slots (s : State) (z : Nat) (m : Option Nat) :
    (s.setRoute z m).slots = s.slots := rfl
@[simp] theorem State.setRoute_store (s : State) (z : Nat) (m : Option Nat) :
    (s.setRoute z m).store = s.store := rfl
@[simp] theorem State.setRoute_runner (s : State) (z : Nat) (m : Option Nat) :
    (s.setRoute z m).runner = s.runner := rfl
@[simp] theorem State.setRoute_calls (s : State) (z : Nat) (m : Option Nat) :
    (s.setRoute z m).calls = s.calls := rfl
@[simp] theorem State.setRoute_watch (s : State) (z : Nat) (m : Option Nat) :
    (s.setRoute z m).watch = s.watch := rfl
@[simp] theorem State.setRoute_record (s : State) (z : Nat) (m : Option Nat) :
    (s.setRoute z m).record = s.record := rfl
@[simp] theorem State.setRoute_staging (s : State) (z : Nat) (m : Option Nat) :
    (s.setRoute z m).staging = s.staging := rfl
@[simp] theorem State.setRoute_causes (s : State) (z : Nat) (m : Option Nat) :
    (s.setRoute z m).causes = s.causes := rfl
@[simp] theorem State.setRoute_timeBase (s : State) (z : Nat) (m : Option Nat) :
    (s.setRoute z m).timeBase = s.timeBase := rfl
@[simp] theorem State.setRoute_pending (s : State) (z : Nat) (m : Option Nat) :
    (s.setRoute z m).pending = s.pending := rfl

/-! ### advanceRamps -/

@[simp] theorem State.advanceRamps_lanes (s : State) :
    (s.advanceRamps).lanes = s.lanes := rfl
@[simp] theorem State.advanceRamps_points (s : State) :
    (s.advanceRamps).points = s.points := rfl
@[simp] theorem State.advanceRamps_inputMap (s : State) :
    (s.advanceRamps).inputMap = s.inputMap := rfl
@[simp] theorem State.advanceRamps_masks (s : State) :
    (s.advanceRamps).masks = s.masks := rfl
@[simp] theorem State.advanceRamps_audio (s : State) :
    (s.advanceRamps).audio = s.audio := rfl
@[simp] theorem State.advanceRamps_slots (s : State) :
    (s.advanceRamps).slots = s.slots := rfl
@[simp] theorem State.advanceRamps_store (s : State) :
    (s.advanceRamps).store = s.store := rfl
@[simp] theorem State.advanceRamps_runner (s : State) :
    (s.advanceRamps).runner = s.runner := rfl
@[simp] theorem State.advanceRamps_calls (s : State) :
    (s.advanceRamps).calls = s.calls := rfl
@[simp] theorem State.advanceRamps_watch (s : State) :
    (s.advanceRamps).watch = s.watch := rfl
@[simp] theorem State.advanceRamps_record (s : State) :
    (s.advanceRamps).record = s.record := rfl
@[simp] theorem State.advanceRamps_staging (s : State) :
    (s.advanceRamps).staging = s.staging := rfl
@[simp] theorem State.advanceRamps_causes (s : State) :
    (s.advanceRamps).causes = s.causes := rfl
@[simp] theorem State.advanceRamps_timeBase (s : State) :
    (s.advanceRamps).timeBase = s.timeBase := rfl
@[simp] theorem State.advanceRamps_pending (s : State) :
    (s.advanceRamps).pending = s.pending := rfl

/-! ### retarget -/

@[simp] theorem State.retarget_lanes (s : State) (old new : ZoneSet) :
    (s.retarget old new).lanes = s.lanes := rfl
@[simp] theorem State.retarget_points (s : State) (old new : ZoneSet) :
    (s.retarget old new).points = s.points := rfl
@[simp] theorem State.retarget_inputMap (s : State) (old new : ZoneSet) :
    (s.retarget old new).inputMap = s.inputMap := rfl
@[simp] theorem State.retarget_masks (s : State) (old new : ZoneSet) :
    (s.retarget old new).masks = s.masks := rfl
@[simp] theorem State.retarget_audio (s : State) (old new : ZoneSet) :
    (s.retarget old new).audio = s.audio := rfl
@[simp] theorem State.retarget_slots (s : State) (old new : ZoneSet) :
    (s.retarget old new).slots = s.slots := rfl
@[simp] theorem State.retarget_store (s : State) (old new : ZoneSet) :
    (s.retarget old new).store = s.store := rfl
@[simp] theorem State.retarget_runner (s : State) (old new : ZoneSet) :
    (s.retarget old new).runner = s.runner := rfl
@[simp] theorem State.retarget_calls (s : State) (old new : ZoneSet) :
    (s.retarget old new).calls = s.calls := rfl
@[simp] theorem State.retarget_watch (s : State) (old new : ZoneSet) :
    (s.retarget old new).watch = s.watch := rfl
@[simp] theorem State.retarget_record (s : State) (old new : ZoneSet) :
    (s.retarget old new).record = s.record := rfl
@[simp] theorem State.retarget_staging (s : State) (old new : ZoneSet) :
    (s.retarget old new).staging = s.staging := rfl
@[simp] theorem State.retarget_causes (s : State) (old new : ZoneSet) :
    (s.retarget old new).causes = s.causes := rfl
@[simp] theorem State.retarget_timeBase (s : State) (old new : ZoneSet) :
    (s.retarget old new).timeBase = s.timeBase := rfl
@[simp] theorem State.retarget_pending (s : State) (old new : ZoneSet) :
    (s.retarget old new).pending = s.pending := rfl

/-! ### endCalls -/

@[simp] theorem State.endCalls_lanes (s : State) :
    (s.endCalls).lanes = s.lanes := rfl
@[simp] theorem State.endCalls_points (s : State) :
    (s.endCalls).points = s.points := rfl
@[simp] theorem State.endCalls_inputMap (s : State) :
    (s.endCalls).inputMap = s.inputMap := rfl
@[simp] theorem State.endCalls_masks (s : State) :
    (s.endCalls).masks = s.masks := rfl
@[simp] theorem State.endCalls_audio (s : State) :
    (s.endCalls).audio = s.audio := rfl
@[simp] theorem State.endCalls_slots (s : State) :
    (s.endCalls).slots = s.slots := rfl
@[simp] theorem State.endCalls_store (s : State) :
    (s.endCalls).store = s.store := rfl
@[simp] theorem State.endCalls_runner (s : State) :
    (s.endCalls).runner = s.runner := rfl
@[simp] theorem State.endCalls_watch (s : State) :
    (s.endCalls).watch = s.watch := rfl
@[simp] theorem State.endCalls_record (s : State) :
    (s.endCalls).record = s.record := rfl
@[simp] theorem State.endCalls_staging (s : State) :
    (s.endCalls).staging = s.staging := rfl
@[simp] theorem State.endCalls_causes (s : State) :
    (s.endCalls).causes = s.causes := rfl
@[simp] theorem State.endCalls_timeBase (s : State) :
    (s.endCalls).timeBase = s.timeBase := rfl
@[simp] theorem State.endCalls_pending (s : State) :
    (s.endCalls).pending = s.pending := rfl

/-! ### tickCall -/

@[simp] theorem State.tickCall_lanes (s : State) :
    (s.tickCall).lanes = s.lanes := rfl
@[simp] theorem State.tickCall_points (s : State) :
    (s.tickCall).points = s.points := rfl
@[simp] theorem State.tickCall_inputMap (s : State) :
    (s.tickCall).inputMap = s.inputMap := rfl
@[simp] theorem State.tickCall_masks (s : State) :
    (s.tickCall).masks = s.masks := rfl
@[simp] theorem State.tickCall_audio (s : State) :
    (s.tickCall).audio = s.audio := rfl
@[simp] theorem State.tickCall_slots (s : State) :
    (s.tickCall).slots = s.slots := rfl
@[simp] theorem State.tickCall_store (s : State) :
    (s.tickCall).store = s.store := rfl
@[simp] theorem State.tickCall_runner (s : State) :
    (s.tickCall).runner = s.runner := rfl
@[simp] theorem State.tickCall_zones (s : State) :
    (s.tickCall).zones = s.zones := rfl
@[simp] theorem State.tickCall_watch (s : State) :
    (s.tickCall).watch = s.watch := rfl
@[simp] theorem State.tickCall_record (s : State) :
    (s.tickCall).record = s.record := rfl
@[simp] theorem State.tickCall_staging (s : State) :
    (s.tickCall).staging = s.staging := rfl
@[simp] theorem State.tickCall_causes (s : State) :
    (s.tickCall).causes = s.causes := rfl
@[simp] theorem State.tickCall_timeBase (s : State) :
    (s.tickCall).timeBase = s.timeBase := rfl
@[simp] theorem State.tickCall_pending (s : State) :
    (s.tickCall).pending = s.pending := rfl

/-! ### setMask -/

@[simp] theorem State.setMask_lanes (s : State) (m : Nat) (on : Bool) :
    (s.setMask m on).lanes = s.lanes := rfl
@[simp] theorem State.setMask_points (s : State) (m : Nat) (on : Bool) :
    (s.setMask m on).points = s.points := rfl
@[simp] theorem State.setMask_inputMap (s : State) (m : Nat) (on : Bool) :
    (s.setMask m on).inputMap = s.inputMap := rfl
@[simp] theorem State.setMask_audio (s : State) (m : Nat) (on : Bool) :
    (s.setMask m on).audio = s.audio := rfl
@[simp] theorem State.setMask_slots (s : State) (m : Nat) (on : Bool) :
    (s.setMask m on).slots = s.slots := rfl
@[simp] theorem State.setMask_store (s : State) (m : Nat) (on : Bool) :
    (s.setMask m on).store = s.store := rfl
@[simp] theorem State.setMask_runner (s : State) (m : Nat) (on : Bool) :
    (s.setMask m on).runner = s.runner := rfl
@[simp] theorem State.setMask_zones (s : State) (m : Nat) (on : Bool) :
    (s.setMask m on).zones = s.zones := rfl
@[simp] theorem State.setMask_calls (s : State) (m : Nat) (on : Bool) :
    (s.setMask m on).calls = s.calls := rfl
@[simp] theorem State.setMask_watch (s : State) (m : Nat) (on : Bool) :
    (s.setMask m on).watch = s.watch := rfl
@[simp] theorem State.setMask_record (s : State) (m : Nat) (on : Bool) :
    (s.setMask m on).record = s.record := rfl
@[simp] theorem State.setMask_staging (s : State) (m : Nat) (on : Bool) :
    (s.setMask m on).staging = s.staging := rfl
@[simp] theorem State.setMask_causes (s : State) (m : Nat) (on : Bool) :
    (s.setMask m on).causes = s.causes := rfl
@[simp] theorem State.setMask_timeBase (s : State) (m : Nat) (on : Bool) :
    (s.setMask m on).timeBase = s.timeBase := rfl
@[simp] theorem State.setMask_pending (s : State) (m : Nat) (on : Bool) :
    (s.setMask m on).pending = s.pending := rfl

/-! ### swapInputs -/

@[simp] theorem State.swapInputs_lanes (s : State) (x y : Nat) :
    (s.swapInputs x y).lanes = s.lanes := rfl
@[simp] theorem State.swapInputs_points (s : State) (x y : Nat) :
    (s.swapInputs x y).points = s.points := rfl
@[simp] theorem State.swapInputs_masks (s : State) (x y : Nat) :
    (s.swapInputs x y).masks = s.masks := rfl
@[simp] theorem State.swapInputs_audio (s : State) (x y : Nat) :
    (s.swapInputs x y).audio = s.audio := rfl
@[simp] theorem State.swapInputs_slots (s : State) (x y : Nat) :
    (s.swapInputs x y).slots = s.slots := rfl
@[simp] theorem State.swapInputs_store (s : State) (x y : Nat) :
    (s.swapInputs x y).store = s.store := rfl
@[simp] theorem State.swapInputs_runner (s : State) (x y : Nat) :
    (s.swapInputs x y).runner = s.runner := rfl
@[simp] theorem State.swapInputs_zones (s : State) (x y : Nat) :
    (s.swapInputs x y).zones = s.zones := rfl
@[simp] theorem State.swapInputs_calls (s : State) (x y : Nat) :
    (s.swapInputs x y).calls = s.calls := rfl
@[simp] theorem State.swapInputs_watch (s : State) (x y : Nat) :
    (s.swapInputs x y).watch = s.watch := rfl
@[simp] theorem State.swapInputs_record (s : State) (x y : Nat) :
    (s.swapInputs x y).record = s.record := rfl
@[simp] theorem State.swapInputs_staging (s : State) (x y : Nat) :
    (s.swapInputs x y).staging = s.staging := rfl
@[simp] theorem State.swapInputs_causes (s : State) (x y : Nat) :
    (s.swapInputs x y).causes = s.causes := rfl
@[simp] theorem State.swapInputs_timeBase (s : State) (x y : Nat) :
    (s.swapInputs x y).timeBase = s.timeBase := rfl
@[simp] theorem State.swapInputs_pending (s : State) (x y : Nat) :
    (s.swapInputs x y).pending = s.pending := rfl

/-! ### setLine -/

@[simp] theorem State.setLine_lanes (s : State) (n : Nat) (v : LineState) :
    (s.setLine n v).lanes = s.lanes := rfl
@[simp] theorem State.setLine_points (s : State) (n : Nat) (v : LineState) :
    (s.setLine n v).points = s.points := rfl
@[simp] theorem State.setLine_inputMap (s : State) (n : Nat) (v : LineState) :
    (s.setLine n v).inputMap = s.inputMap := rfl
@[simp] theorem State.setLine_masks (s : State) (n : Nat) (v : LineState) :
    (s.setLine n v).masks = s.masks := rfl
@[simp] theorem State.setLine_audio (s : State) (n : Nat) (v : LineState) :
    (s.setLine n v).audio = s.audio := rfl
@[simp] theorem State.setLine_slots (s : State) (n : Nat) (v : LineState) :
    (s.setLine n v).slots = s.slots := rfl
@[simp] theorem State.setLine_store (s : State) (n : Nat) (v : LineState) :
    (s.setLine n v).store = s.store := rfl
@[simp] theorem State.setLine_zones (s : State) (n : Nat) (v : LineState) :
    (s.setLine n v).zones = s.zones := rfl
@[simp] theorem State.setLine_calls (s : State) (n : Nat) (v : LineState) :
    (s.setLine n v).calls = s.calls := rfl
@[simp] theorem State.setLine_watch (s : State) (n : Nat) (v : LineState) :
    (s.setLine n v).watch = s.watch := rfl
@[simp] theorem State.setLine_record (s : State) (n : Nat) (v : LineState) :
    (s.setLine n v).record = s.record := rfl
@[simp] theorem State.setLine_staging (s : State) (n : Nat) (v : LineState) :
    (s.setLine n v).staging = s.staging := rfl
@[simp] theorem State.setLine_causes (s : State) (n : Nat) (v : LineState) :
    (s.setLine n v).causes = s.causes := rfl
@[simp] theorem State.setLine_timeBase (s : State) (n : Nat) (v : LineState) :
    (s.setLine n v).timeBase = s.timeBase := rfl
@[simp] theorem State.setLine_pending (s : State) (n : Nat) (v : LineState) :
    (s.setLine n v).pending = s.pending := rfl

/-! ### idleLines -/

@[simp] theorem State.idleLines_lanes (s : State) :
    (s.idleLines).lanes = s.lanes := rfl
@[simp] theorem State.idleLines_points (s : State) :
    (s.idleLines).points = s.points := rfl
@[simp] theorem State.idleLines_inputMap (s : State) :
    (s.idleLines).inputMap = s.inputMap := rfl
@[simp] theorem State.idleLines_masks (s : State) :
    (s.idleLines).masks = s.masks := rfl
@[simp] theorem State.idleLines_audio (s : State) :
    (s.idleLines).audio = s.audio := rfl
@[simp] theorem State.idleLines_slots (s : State) :
    (s.idleLines).slots = s.slots := rfl
@[simp] theorem State.idleLines_store (s : State) :
    (s.idleLines).store = s.store := rfl
@[simp] theorem State.idleLines_zones (s : State) :
    (s.idleLines).zones = s.zones := rfl
@[simp] theorem State.idleLines_calls (s : State) :
    (s.idleLines).calls = s.calls := rfl
@[simp] theorem State.idleLines_watch (s : State) :
    (s.idleLines).watch = s.watch := rfl
@[simp] theorem State.idleLines_record (s : State) :
    (s.idleLines).record = s.record := rfl
@[simp] theorem State.idleLines_staging (s : State) :
    (s.idleLines).staging = s.staging := rfl
@[simp] theorem State.idleLines_causes (s : State) :
    (s.idleLines).causes = s.causes := rfl
@[simp] theorem State.idleLines_timeBase (s : State) :
    (s.idleLines).timeBase = s.timeBase := rfl
@[simp] theorem State.idleLines_pending (s : State) :
    (s.idleLines).pending = s.pending := rfl

/-! ### tickLines -/

@[simp] theorem State.tickLines_lanes (s : State) :
    (s.tickLines).lanes = s.lanes := rfl
@[simp] theorem State.tickLines_points (s : State) :
    (s.tickLines).points = s.points := rfl
@[simp] theorem State.tickLines_inputMap (s : State) :
    (s.tickLines).inputMap = s.inputMap := rfl
@[simp] theorem State.tickLines_masks (s : State) :
    (s.tickLines).masks = s.masks := rfl
@[simp] theorem State.tickLines_audio (s : State) :
    (s.tickLines).audio = s.audio := rfl
@[simp] theorem State.tickLines_slots (s : State) :
    (s.tickLines).slots = s.slots := rfl
@[simp] theorem State.tickLines_store (s : State) :
    (s.tickLines).store = s.store := rfl
@[simp] theorem State.tickLines_zones (s : State) :
    (s.tickLines).zones = s.zones := rfl
@[simp] theorem State.tickLines_calls (s : State) :
    (s.tickLines).calls = s.calls := rfl
@[simp] theorem State.tickLines_watch (s : State) :
    (s.tickLines).watch = s.watch := rfl
@[simp] theorem State.tickLines_record (s : State) :
    (s.tickLines).record = s.record := rfl
@[simp] theorem State.tickLines_staging (s : State) :
    (s.tickLines).staging = s.staging := rfl
@[simp] theorem State.tickLines_causes (s : State) :
    (s.tickLines).causes = s.causes := rfl
@[simp] theorem State.tickLines_timeBase (s : State) :
    (s.tickLines).timeBase = s.timeBase := rfl
@[simp] theorem State.tickLines_pending (s : State) :
    (s.tickLines).pending = s.pending := rfl

/-! ### tickRuns -/

@[simp] theorem State.tickRuns_lanes (s : State) :
    (s.tickRuns).lanes = s.lanes := rfl
@[simp] theorem State.tickRuns_points (s : State) :
    (s.tickRuns).points = s.points := rfl
@[simp] theorem State.tickRuns_inputMap (s : State) :
    (s.tickRuns).inputMap = s.inputMap := rfl
@[simp] theorem State.tickRuns_masks (s : State) :
    (s.tickRuns).masks = s.masks := rfl
@[simp] theorem State.tickRuns_audio (s : State) :
    (s.tickRuns).audio = s.audio := rfl
@[simp] theorem State.tickRuns_slots (s : State) :
    (s.tickRuns).slots = s.slots := rfl
@[simp] theorem State.tickRuns_store (s : State) :
    (s.tickRuns).store = s.store := rfl
@[simp] theorem State.tickRuns_zones (s : State) :
    (s.tickRuns).zones = s.zones := rfl
@[simp] theorem State.tickRuns_calls (s : State) :
    (s.tickRuns).calls = s.calls := rfl
@[simp] theorem State.tickRuns_watch (s : State) :
    (s.tickRuns).watch = s.watch := rfl
@[simp] theorem State.tickRuns_record (s : State) :
    (s.tickRuns).record = s.record := rfl
@[simp] theorem State.tickRuns_staging (s : State) :
    (s.tickRuns).staging = s.staging := rfl
@[simp] theorem State.tickRuns_causes (s : State) :
    (s.tickRuns).causes = s.causes := rfl
@[simp] theorem State.tickRuns_timeBase (s : State) :
    (s.tickRuns).timeBase = s.timeBase := rfl
@[simp] theorem State.tickRuns_pending (s : State) :
    (s.tickRuns).pending = s.pending := rfl

/-! ### onRun -/

@[simp] theorem State.onRun_lanes (s : State) (c : Nat) (f : Run → Run) :
    (s.onRun c f).lanes = s.lanes := rfl
@[simp] theorem State.onRun_points (s : State) (c : Nat) (f : Run → Run) :
    (s.onRun c f).points = s.points := rfl
@[simp] theorem State.onRun_inputMap (s : State) (c : Nat) (f : Run → Run) :
    (s.onRun c f).inputMap = s.inputMap := rfl
@[simp] theorem State.onRun_masks (s : State) (c : Nat) (f : Run → Run) :
    (s.onRun c f).masks = s.masks := rfl
@[simp] theorem State.onRun_audio (s : State) (c : Nat) (f : Run → Run) :
    (s.onRun c f).audio = s.audio := rfl
@[simp] theorem State.onRun_slots (s : State) (c : Nat) (f : Run → Run) :
    (s.onRun c f).slots = s.slots := rfl
@[simp] theorem State.onRun_store (s : State) (c : Nat) (f : Run → Run) :
    (s.onRun c f).store = s.store := rfl
@[simp] theorem State.onRun_zones (s : State) (c : Nat) (f : Run → Run) :
    (s.onRun c f).zones = s.zones := rfl
@[simp] theorem State.onRun_calls (s : State) (c : Nat) (f : Run → Run) :
    (s.onRun c f).calls = s.calls := rfl
@[simp] theorem State.onRun_watch (s : State) (c : Nat) (f : Run → Run) :
    (s.onRun c f).watch = s.watch := rfl
@[simp] theorem State.onRun_record (s : State) (c : Nat) (f : Run → Run) :
    (s.onRun c f).record = s.record := rfl
@[simp] theorem State.onRun_staging (s : State) (c : Nat) (f : Run → Run) :
    (s.onRun c f).staging = s.staging := rfl
@[simp] theorem State.onRun_causes (s : State) (c : Nat) (f : Run → Run) :
    (s.onRun c f).causes = s.causes := rfl
@[simp] theorem State.onRun_timeBase (s : State) (c : Nat) (f : Run → Run) :
    (s.onRun c f).timeBase = s.timeBase := rfl
@[simp] theorem State.onRun_pending (s : State) (c : Nat) (f : Run → Run) :
    (s.onRun c f).pending = s.pending := rfl

/-! ### addRun -/

@[simp] theorem State.addRun_lanes (s : State) (rec : Cue) (o : Origin) :
    (s.addRun rec o).lanes = s.lanes := rfl
@[simp] theorem State.addRun_points (s : State) (rec : Cue) (o : Origin) :
    (s.addRun rec o).points = s.points := rfl
@[simp] theorem State.addRun_inputMap (s : State) (rec : Cue) (o : Origin) :
    (s.addRun rec o).inputMap = s.inputMap := rfl
@[simp] theorem State.addRun_masks (s : State) (rec : Cue) (o : Origin) :
    (s.addRun rec o).masks = s.masks := rfl
@[simp] theorem State.addRun_audio (s : State) (rec : Cue) (o : Origin) :
    (s.addRun rec o).audio = s.audio := rfl
@[simp] theorem State.addRun_slots (s : State) (rec : Cue) (o : Origin) :
    (s.addRun rec o).slots = s.slots := rfl
@[simp] theorem State.addRun_store (s : State) (rec : Cue) (o : Origin) :
    (s.addRun rec o).store = s.store := rfl
@[simp] theorem State.addRun_zones (s : State) (rec : Cue) (o : Origin) :
    (s.addRun rec o).zones = s.zones := rfl
@[simp] theorem State.addRun_calls (s : State) (rec : Cue) (o : Origin) :
    (s.addRun rec o).calls = s.calls := rfl
@[simp] theorem State.addRun_watch (s : State) (rec : Cue) (o : Origin) :
    (s.addRun rec o).watch = s.watch := rfl
@[simp] theorem State.addRun_record (s : State) (rec : Cue) (o : Origin) :
    (s.addRun rec o).record = s.record := rfl
@[simp] theorem State.addRun_staging (s : State) (rec : Cue) (o : Origin) :
    (s.addRun rec o).staging = s.staging := rfl
@[simp] theorem State.addRun_causes (s : State) (rec : Cue) (o : Origin) :
    (s.addRun rec o).causes = s.causes := rfl
@[simp] theorem State.addRun_timeBase (s : State) (rec : Cue) (o : Origin) :
    (s.addRun rec o).timeBase = s.timeBase := rfl
@[simp] theorem State.addRun_pending (s : State) (rec : Cue) (o : Origin) :
    (s.addRun rec o).pending = s.pending := rfl

/-! ### dropRun -/

@[simp] theorem State.dropRun_points (s : State) (c : Nat) :
    (s.dropRun c).points = s.points := rfl
@[simp] theorem State.dropRun_inputMap (s : State) (c : Nat) :
    (s.dropRun c).inputMap = s.inputMap := rfl
@[simp] theorem State.dropRun_masks (s : State) (c : Nat) :
    (s.dropRun c).masks = s.masks := rfl
@[simp] theorem State.dropRun_audio (s : State) (c : Nat) :
    (s.dropRun c).audio = s.audio := rfl
@[simp] theorem State.dropRun_slots (s : State) (c : Nat) :
    (s.dropRun c).slots = s.slots := rfl
@[simp] theorem State.dropRun_store (s : State) (c : Nat) :
    (s.dropRun c).store = s.store := rfl
@[simp] theorem State.dropRun_zones (s : State) (c : Nat) :
    (s.dropRun c).zones = s.zones := rfl
@[simp] theorem State.dropRun_calls (s : State) (c : Nat) :
    (s.dropRun c).calls = s.calls := rfl
@[simp] theorem State.dropRun_watch (s : State) (c : Nat) :
    (s.dropRun c).watch = s.watch := rfl
@[simp] theorem State.dropRun_record (s : State) (c : Nat) :
    (s.dropRun c).record = s.record := rfl
@[simp] theorem State.dropRun_staging (s : State) (c : Nat) :
    (s.dropRun c).staging = s.staging := rfl
@[simp] theorem State.dropRun_causes (s : State) (c : Nat) :
    (s.dropRun c).causes = s.causes := rfl
@[simp] theorem State.dropRun_timeBase (s : State) (c : Nat) :
    (s.dropRun c).timeBase = s.timeBase := rfl
@[simp] theorem State.dropRun_pending (s : State) (c : Nat) :
    (s.dropRun c).pending = s.pending := rfl

/-! ### stopMotion -/

@[simp] theorem State.stopMotion_lanes (s : State) :
    (s.stopMotion).lanes = s.lanes := rfl
@[simp] theorem State.stopMotion_inputMap (s : State) :
    (s.stopMotion).inputMap = s.inputMap := rfl
@[simp] theorem State.stopMotion_masks (s : State) :
    (s.stopMotion).masks = s.masks := rfl
@[simp] theorem State.stopMotion_audio (s : State) :
    (s.stopMotion).audio = s.audio := rfl
@[simp] theorem State.stopMotion_store (s : State) :
    (s.stopMotion).store = s.store := rfl
@[simp] theorem State.stopMotion_zones (s : State) :
    (s.stopMotion).zones = s.zones := rfl
@[simp] theorem State.stopMotion_calls (s : State) :
    (s.stopMotion).calls = s.calls := rfl
@[simp] theorem State.stopMotion_watch (s : State) :
    (s.stopMotion).watch = s.watch := rfl
@[simp] theorem State.stopMotion_record (s : State) :
    (s.stopMotion).record = s.record := rfl
@[simp] theorem State.stopMotion_staging (s : State) :
    (s.stopMotion).staging = s.staging := rfl
@[simp] theorem State.stopMotion_causes (s : State) :
    (s.stopMotion).causes = s.causes := rfl
@[simp] theorem State.stopMotion_timeBase (s : State) :
    (s.stopMotion).timeBase = s.timeBase := rfl
@[simp] theorem State.stopMotion_pending (s : State) :
    (s.stopMotion).pending = s.pending := rfl

/-! ### onWatchZone -/

@[simp] theorem State.onWatchZone_lanes (s : State) (z : Nat) (f : WatchZone → WatchZone) :
    (s.onWatchZone z f).lanes = s.lanes := rfl
@[simp] theorem State.onWatchZone_points (s : State) (z : Nat) (f : WatchZone → WatchZone) :
    (s.onWatchZone z f).points = s.points := rfl
@[simp] theorem State.onWatchZone_inputMap (s : State) (z : Nat) (f : WatchZone → WatchZone) :
    (s.onWatchZone z f).inputMap = s.inputMap := rfl
@[simp] theorem State.onWatchZone_masks (s : State) (z : Nat) (f : WatchZone → WatchZone) :
    (s.onWatchZone z f).masks = s.masks := rfl
@[simp] theorem State.onWatchZone_audio (s : State) (z : Nat) (f : WatchZone → WatchZone) :
    (s.onWatchZone z f).audio = s.audio := rfl
@[simp] theorem State.onWatchZone_slots (s : State) (z : Nat) (f : WatchZone → WatchZone) :
    (s.onWatchZone z f).slots = s.slots := rfl
@[simp] theorem State.onWatchZone_store (s : State) (z : Nat) (f : WatchZone → WatchZone) :
    (s.onWatchZone z f).store = s.store := rfl
@[simp] theorem State.onWatchZone_runner (s : State) (z : Nat) (f : WatchZone → WatchZone) :
    (s.onWatchZone z f).runner = s.runner := rfl
@[simp] theorem State.onWatchZone_zones (s : State) (z : Nat) (f : WatchZone → WatchZone) :
    (s.onWatchZone z f).zones = s.zones := rfl
@[simp] theorem State.onWatchZone_calls (s : State) (z : Nat) (f : WatchZone → WatchZone) :
    (s.onWatchZone z f).calls = s.calls := rfl
@[simp] theorem State.onWatchZone_record (s : State) (z : Nat) (f : WatchZone → WatchZone) :
    (s.onWatchZone z f).record = s.record := rfl
@[simp] theorem State.onWatchZone_staging (s : State) (z : Nat) (f : WatchZone → WatchZone) :
    (s.onWatchZone z f).staging = s.staging := rfl
@[simp] theorem State.onWatchZone_causes (s : State) (z : Nat) (f : WatchZone → WatchZone) :
    (s.onWatchZone z f).causes = s.causes := rfl
@[simp] theorem State.onWatchZone_timeBase (s : State) (z : Nat) (f : WatchZone → WatchZone) :
    (s.onWatchZone z f).timeBase = s.timeBase := rfl
@[simp] theorem State.onWatchZone_pending (s : State) (z : Nat) (f : WatchZone → WatchZone) :
    (s.onWatchZone z f).pending = s.pending := rfl

/-! ### clearQuiet -/

@[simp] theorem State.clearQuiet_lanes (s : State) :
    (s.clearQuiet).lanes = s.lanes := rfl
@[simp] theorem State.clearQuiet_points (s : State) :
    (s.clearQuiet).points = s.points := rfl
@[simp] theorem State.clearQuiet_inputMap (s : State) :
    (s.clearQuiet).inputMap = s.inputMap := rfl
@[simp] theorem State.clearQuiet_masks (s : State) :
    (s.clearQuiet).masks = s.masks := rfl
@[simp] theorem State.clearQuiet_audio (s : State) :
    (s.clearQuiet).audio = s.audio := rfl
@[simp] theorem State.clearQuiet_slots (s : State) :
    (s.clearQuiet).slots = s.slots := rfl
@[simp] theorem State.clearQuiet_store (s : State) :
    (s.clearQuiet).store = s.store := rfl
@[simp] theorem State.clearQuiet_runner (s : State) :
    (s.clearQuiet).runner = s.runner := rfl
@[simp] theorem State.clearQuiet_zones (s : State) :
    (s.clearQuiet).zones = s.zones := rfl
@[simp] theorem State.clearQuiet_calls (s : State) :
    (s.clearQuiet).calls = s.calls := rfl
@[simp] theorem State.clearQuiet_record (s : State) :
    (s.clearQuiet).record = s.record := rfl
@[simp] theorem State.clearQuiet_staging (s : State) :
    (s.clearQuiet).staging = s.staging := rfl
@[simp] theorem State.clearQuiet_causes (s : State) :
    (s.clearQuiet).causes = s.causes := rfl
@[simp] theorem State.clearQuiet_timeBase (s : State) :
    (s.clearQuiet).timeBase = s.timeBase := rfl
@[simp] theorem State.clearQuiet_pending (s : State) :
    (s.clearQuiet).pending = s.pending := rfl

/-! ### measureFrame -/

@[simp] theorem State.measureFrame_lanes (s : State) (sums : List Int) :
    (s.measureFrame sums).lanes = s.lanes := rfl
@[simp] theorem State.measureFrame_points (s : State) (sums : List Int) :
    (s.measureFrame sums).points = s.points := rfl
@[simp] theorem State.measureFrame_inputMap (s : State) (sums : List Int) :
    (s.measureFrame sums).inputMap = s.inputMap := rfl
@[simp] theorem State.measureFrame_masks (s : State) (sums : List Int) :
    (s.measureFrame sums).masks = s.masks := rfl
@[simp] theorem State.measureFrame_audio (s : State) (sums : List Int) :
    (s.measureFrame sums).audio = s.audio := rfl
@[simp] theorem State.measureFrame_slots (s : State) (sums : List Int) :
    (s.measureFrame sums).slots = s.slots := rfl
@[simp] theorem State.measureFrame_store (s : State) (sums : List Int) :
    (s.measureFrame sums).store = s.store := rfl
@[simp] theorem State.measureFrame_runner (s : State) (sums : List Int) :
    (s.measureFrame sums).runner = s.runner := rfl
@[simp] theorem State.measureFrame_zones (s : State) (sums : List Int) :
    (s.measureFrame sums).zones = s.zones := rfl
@[simp] theorem State.measureFrame_calls (s : State) (sums : List Int) :
    (s.measureFrame sums).calls = s.calls := rfl
@[simp] theorem State.measureFrame_record (s : State) (sums : List Int) :
    (s.measureFrame sums).record = s.record := rfl
@[simp] theorem State.measureFrame_staging (s : State) (sums : List Int) :
    (s.measureFrame sums).staging = s.staging := rfl
@[simp] theorem State.measureFrame_causes (s : State) (sums : List Int) :
    (s.measureFrame sums).causes = s.causes := rfl
@[simp] theorem State.measureFrame_timeBase (s : State) (sums : List Int) :
    (s.measureFrame sums).timeBase = s.timeBase := rfl
@[simp] theorem State.measureFrame_pending (s : State) (sums : List Int) :
    (s.measureFrame sums).pending = s.pending := rfl

/-! ### report -/

@[simp] theorem State.report_lanes (s : State) (l : LogLane) (c z : Option Nat) (d : Detail) :
    (s.report l c z d).lanes = s.lanes := rfl
@[simp] theorem State.report_points (s : State) (l : LogLane) (c z : Option Nat) (d : Detail) :
    (s.report l c z d).points = s.points := rfl
@[simp] theorem State.report_inputMap (s : State) (l : LogLane) (c z : Option Nat) (d : Detail) :
    (s.report l c z d).inputMap = s.inputMap := rfl
@[simp] theorem State.report_masks (s : State) (l : LogLane) (c z : Option Nat) (d : Detail) :
    (s.report l c z d).masks = s.masks := rfl
@[simp] theorem State.report_audio (s : State) (l : LogLane) (c z : Option Nat) (d : Detail) :
    (s.report l c z d).audio = s.audio := rfl
@[simp] theorem State.report_slots (s : State) (l : LogLane) (c z : Option Nat) (d : Detail) :
    (s.report l c z d).slots = s.slots := rfl
@[simp] theorem State.report_store (s : State) (l : LogLane) (c z : Option Nat) (d : Detail) :
    (s.report l c z d).store = s.store := rfl
@[simp] theorem State.report_runner (s : State) (l : LogLane) (c z : Option Nat) (d : Detail) :
    (s.report l c z d).runner = s.runner := rfl
@[simp] theorem State.report_zones (s : State) (l : LogLane) (c z : Option Nat) (d : Detail) :
    (s.report l c z d).zones = s.zones := rfl
@[simp] theorem State.report_calls (s : State) (l : LogLane) (c z : Option Nat) (d : Detail) :
    (s.report l c z d).calls = s.calls := rfl
@[simp] theorem State.report_watch (s : State) (l : LogLane) (c z : Option Nat) (d : Detail) :
    (s.report l c z d).watch = s.watch := rfl
@[simp] theorem State.report_staging (s : State) (l : LogLane) (c z : Option Nat) (d : Detail) :
    (s.report l c z d).staging = s.staging := rfl
@[simp] theorem State.report_causes (s : State) (l : LogLane) (c z : Option Nat) (d : Detail) :
    (s.report l c z d).causes = s.causes := rfl
@[simp] theorem State.report_timeBase (s : State) (l : LogLane) (c z : Option Nat) (d : Detail) :
    (s.report l c z d).timeBase = s.timeBase := rfl
@[simp] theorem State.report_pending (s : State) (l : LogLane) (c z : Option Nat) (d : Detail) :
    (s.report l c z d).pending = s.pending := rfl

/-! ### alarmEvent -/

@[simp] theorem State.alarmEvent_points (s : State) (l : LogLane) (z : Nat) (d : Detail) :
    (s.alarmEvent l z d).points = s.points := rfl
@[simp] theorem State.alarmEvent_inputMap (s : State) (l : LogLane) (z : Nat) (d : Detail) :
    (s.alarmEvent l z d).inputMap = s.inputMap := rfl
@[simp] theorem State.alarmEvent_masks (s : State) (l : LogLane) (z : Nat) (d : Detail) :
    (s.alarmEvent l z d).masks = s.masks := rfl
@[simp] theorem State.alarmEvent_audio (s : State) (l : LogLane) (z : Nat) (d : Detail) :
    (s.alarmEvent l z d).audio = s.audio := rfl
@[simp] theorem State.alarmEvent_slots (s : State) (l : LogLane) (z : Nat) (d : Detail) :
    (s.alarmEvent l z d).slots = s.slots := rfl
@[simp] theorem State.alarmEvent_store (s : State) (l : LogLane) (z : Nat) (d : Detail) :
    (s.alarmEvent l z d).store = s.store := rfl
@[simp] theorem State.alarmEvent_runner (s : State) (l : LogLane) (z : Nat) (d : Detail) :
    (s.alarmEvent l z d).runner = s.runner := rfl
@[simp] theorem State.alarmEvent_zones (s : State) (l : LogLane) (z : Nat) (d : Detail) :
    (s.alarmEvent l z d).zones = s.zones := rfl
@[simp] theorem State.alarmEvent_calls (s : State) (l : LogLane) (z : Nat) (d : Detail) :
    (s.alarmEvent l z d).calls = s.calls := rfl
@[simp] theorem State.alarmEvent_watch (s : State) (l : LogLane) (z : Nat) (d : Detail) :
    (s.alarmEvent l z d).watch = s.watch := rfl
@[simp] theorem State.alarmEvent_staging (s : State) (l : LogLane) (z : Nat) (d : Detail) :
    (s.alarmEvent l z d).staging = s.staging := rfl
@[simp] theorem State.alarmEvent_causes (s : State) (l : LogLane) (z : Nat) (d : Detail) :
    (s.alarmEvent l z d).causes = s.causes := rfl
@[simp] theorem State.alarmEvent_timeBase (s : State) (l : LogLane) (z : Nat) (d : Detail) :
    (s.alarmEvent l z d).timeBase = s.timeBase := rfl
@[simp] theorem State.alarmEvent_pending (s : State) (l : LogLane) (z : Nat) (d : Detail) :
    (s.alarmEvent l z d).pending = s.pending := rfl

/-! ### noticeAll -/

@[simp] theorem State.noticeAll_points (s : State) (k : Notice) :
    (s.noticeAll k).points = s.points := rfl
@[simp] theorem State.noticeAll_inputMap (s : State) (k : Notice) :
    (s.noticeAll k).inputMap = s.inputMap := rfl
@[simp] theorem State.noticeAll_masks (s : State) (k : Notice) :
    (s.noticeAll k).masks = s.masks := rfl
@[simp] theorem State.noticeAll_audio (s : State) (k : Notice) :
    (s.noticeAll k).audio = s.audio := rfl
@[simp] theorem State.noticeAll_slots (s : State) (k : Notice) :
    (s.noticeAll k).slots = s.slots := rfl
@[simp] theorem State.noticeAll_store (s : State) (k : Notice) :
    (s.noticeAll k).store = s.store := rfl
@[simp] theorem State.noticeAll_runner (s : State) (k : Notice) :
    (s.noticeAll k).runner = s.runner := rfl
@[simp] theorem State.noticeAll_zones (s : State) (k : Notice) :
    (s.noticeAll k).zones = s.zones := rfl
@[simp] theorem State.noticeAll_calls (s : State) (k : Notice) :
    (s.noticeAll k).calls = s.calls := rfl
@[simp] theorem State.noticeAll_watch (s : State) (k : Notice) :
    (s.noticeAll k).watch = s.watch := rfl
@[simp] theorem State.noticeAll_record (s : State) (k : Notice) :
    (s.noticeAll k).record = s.record := rfl
@[simp] theorem State.noticeAll_staging (s : State) (k : Notice) :
    (s.noticeAll k).staging = s.staging := rfl
@[simp] theorem State.noticeAll_causes (s : State) (k : Notice) :
    (s.noticeAll k).causes = s.causes := rfl
@[simp] theorem State.noticeAll_timeBase (s : State) (k : Notice) :
    (s.noticeAll k).timeBase = s.timeBase := rfl
@[simp] theorem State.noticeAll_pending (s : State) (k : Notice) :
    (s.noticeAll k).pending = s.pending := rfl

/-! ### noticeOthers -/

@[simp] theorem State.noticeOthers_points (s : State) (l : Lane) (k : Notice) :
    (s.noticeOthers l k).points = s.points := by cases l <;> rfl
@[simp] theorem State.noticeOthers_inputMap (s : State) (l : Lane) (k : Notice) :
    (s.noticeOthers l k).inputMap = s.inputMap := by cases l <;> rfl
@[simp] theorem State.noticeOthers_masks (s : State) (l : Lane) (k : Notice) :
    (s.noticeOthers l k).masks = s.masks := by cases l <;> rfl
@[simp] theorem State.noticeOthers_audio (s : State) (l : Lane) (k : Notice) :
    (s.noticeOthers l k).audio = s.audio := by cases l <;> rfl
@[simp] theorem State.noticeOthers_slots (s : State) (l : Lane) (k : Notice) :
    (s.noticeOthers l k).slots = s.slots := by cases l <;> rfl
@[simp] theorem State.noticeOthers_store (s : State) (l : Lane) (k : Notice) :
    (s.noticeOthers l k).store = s.store := by cases l <;> rfl
@[simp] theorem State.noticeOthers_runner (s : State) (l : Lane) (k : Notice) :
    (s.noticeOthers l k).runner = s.runner := by cases l <;> rfl
@[simp] theorem State.noticeOthers_zones (s : State) (l : Lane) (k : Notice) :
    (s.noticeOthers l k).zones = s.zones := by cases l <;> rfl
@[simp] theorem State.noticeOthers_calls (s : State) (l : Lane) (k : Notice) :
    (s.noticeOthers l k).calls = s.calls := by cases l <;> rfl
@[simp] theorem State.noticeOthers_watch (s : State) (l : Lane) (k : Notice) :
    (s.noticeOthers l k).watch = s.watch := by cases l <;> rfl
@[simp] theorem State.noticeOthers_record (s : State) (l : Lane) (k : Notice) :
    (s.noticeOthers l k).record = s.record := by cases l <;> rfl
@[simp] theorem State.noticeOthers_staging (s : State) (l : Lane) (k : Notice) :
    (s.noticeOthers l k).staging = s.staging := by cases l <;> rfl
@[simp] theorem State.noticeOthers_causes (s : State) (l : Lane) (k : Notice) :
    (s.noticeOthers l k).causes = s.causes := by cases l <;> rfl
@[simp] theorem State.noticeOthers_timeBase (s : State) (l : Lane) (k : Notice) :
    (s.noticeOthers l k).timeBase = s.timeBase := by cases l <;> rfl
@[simp] theorem State.noticeOthers_pending (s : State) (l : Lane) (k : Notice) :
    (s.noticeOthers l k).pending = s.pending := by cases l <;> rfl

/-! ### reply -/

@[simp] theorem State.reply_points (s : State) (l : Lane) (f : Frame) (st : Status) (b : List Byte) :
    (s.reply l f st b).points = s.points := rfl
@[simp] theorem State.reply_inputMap (s : State) (l : Lane) (f : Frame) (st : Status) (b : List Byte) :
    (s.reply l f st b).inputMap = s.inputMap := rfl
@[simp] theorem State.reply_masks (s : State) (l : Lane) (f : Frame) (st : Status) (b : List Byte) :
    (s.reply l f st b).masks = s.masks := rfl
@[simp] theorem State.reply_audio (s : State) (l : Lane) (f : Frame) (st : Status) (b : List Byte) :
    (s.reply l f st b).audio = s.audio := rfl
@[simp] theorem State.reply_slots (s : State) (l : Lane) (f : Frame) (st : Status) (b : List Byte) :
    (s.reply l f st b).slots = s.slots := rfl
@[simp] theorem State.reply_store (s : State) (l : Lane) (f : Frame) (st : Status) (b : List Byte) :
    (s.reply l f st b).store = s.store := rfl
@[simp] theorem State.reply_runner (s : State) (l : Lane) (f : Frame) (st : Status) (b : List Byte) :
    (s.reply l f st b).runner = s.runner := rfl
@[simp] theorem State.reply_zones (s : State) (l : Lane) (f : Frame) (st : Status) (b : List Byte) :
    (s.reply l f st b).zones = s.zones := rfl
@[simp] theorem State.reply_calls (s : State) (l : Lane) (f : Frame) (st : Status) (b : List Byte) :
    (s.reply l f st b).calls = s.calls := rfl
@[simp] theorem State.reply_watch (s : State) (l : Lane) (f : Frame) (st : Status) (b : List Byte) :
    (s.reply l f st b).watch = s.watch := rfl
@[simp] theorem State.reply_record (s : State) (l : Lane) (f : Frame) (st : Status) (b : List Byte) :
    (s.reply l f st b).record = s.record := rfl
@[simp] theorem State.reply_staging (s : State) (l : Lane) (f : Frame) (st : Status) (b : List Byte) :
    (s.reply l f st b).staging = s.staging := rfl
@[simp] theorem State.reply_causes (s : State) (l : Lane) (f : Frame) (st : Status) (b : List Byte) :
    (s.reply l f st b).causes = s.causes := rfl
@[simp] theorem State.reply_timeBase (s : State) (l : Lane) (f : Frame) (st : Status) (b : List Byte) :
    (s.reply l f st b).timeBase = s.timeBase := rfl
@[simp] theorem State.reply_pending (s : State) (l : Lane) (f : Frame) (st : Status) (b : List Byte) :
    (s.reply l f st b).pending = s.pending := rfl

/-! ### answer -/

@[simp] theorem State.answer_points (s : State) (i : Instr) (st : Status) (b : List Byte) :
    (s.answer i st b).points = s.points := by unfold State.answer; split <;> rfl
@[simp] theorem State.answer_inputMap (s : State) (i : Instr) (st : Status) (b : List Byte) :
    (s.answer i st b).inputMap = s.inputMap := by unfold State.answer; split <;> rfl
@[simp] theorem State.answer_masks (s : State) (i : Instr) (st : Status) (b : List Byte) :
    (s.answer i st b).masks = s.masks := by unfold State.answer; split <;> rfl
@[simp] theorem State.answer_audio (s : State) (i : Instr) (st : Status) (b : List Byte) :
    (s.answer i st b).audio = s.audio := by unfold State.answer; split <;> rfl
@[simp] theorem State.answer_slots (s : State) (i : Instr) (st : Status) (b : List Byte) :
    (s.answer i st b).slots = s.slots := by unfold State.answer; split <;> rfl
@[simp] theorem State.answer_store (s : State) (i : Instr) (st : Status) (b : List Byte) :
    (s.answer i st b).store = s.store := by unfold State.answer; split <;> rfl
@[simp] theorem State.answer_runner (s : State) (i : Instr) (st : Status) (b : List Byte) :
    (s.answer i st b).runner = s.runner := by unfold State.answer; split <;> rfl
@[simp] theorem State.answer_zones (s : State) (i : Instr) (st : Status) (b : List Byte) :
    (s.answer i st b).zones = s.zones := by unfold State.answer; split <;> rfl
@[simp] theorem State.answer_calls (s : State) (i : Instr) (st : Status) (b : List Byte) :
    (s.answer i st b).calls = s.calls := by unfold State.answer; split <;> rfl
@[simp] theorem State.answer_watch (s : State) (i : Instr) (st : Status) (b : List Byte) :
    (s.answer i st b).watch = s.watch := by unfold State.answer; split <;> rfl
@[simp] theorem State.answer_record (s : State) (i : Instr) (st : Status) (b : List Byte) :
    (s.answer i st b).record = s.record := by unfold State.answer; split <;> rfl
@[simp] theorem State.answer_staging (s : State) (i : Instr) (st : Status) (b : List Byte) :
    (s.answer i st b).staging = s.staging := by unfold State.answer; split <;> rfl
@[simp] theorem State.answer_causes (s : State) (i : Instr) (st : Status) (b : List Byte) :
    (s.answer i st b).causes = s.causes := by unfold State.answer; split <;> rfl
@[simp] theorem State.answer_timeBase (s : State) (i : Instr) (st : Status) (b : List Byte) :
    (s.answer i st b).timeBase = s.timeBase := by unfold State.answer; split <;> rfl
@[simp] theorem State.answer_pending (s : State) (i : Instr) (st : Status) (b : List Byte) :
    (s.answer i st b).pending = s.pending := by unfold State.answer; split <;> rfl

/-! ### setBuffer -/

@[simp] theorem State.setBuffer_lanes (s : State) (l : Lane) (v : Option Image) :
    (s.setBuffer l v).lanes = s.lanes := by cases l <;> rfl
@[simp] theorem State.setBuffer_points (s : State) (l : Lane) (v : Option Image) :
    (s.setBuffer l v).points = s.points := by cases l <;> rfl
@[simp] theorem State.setBuffer_inputMap (s : State) (l : Lane) (v : Option Image) :
    (s.setBuffer l v).inputMap = s.inputMap := by cases l <;> rfl
@[simp] theorem State.setBuffer_masks (s : State) (l : Lane) (v : Option Image) :
    (s.setBuffer l v).masks = s.masks := by cases l <;> rfl
@[simp] theorem State.setBuffer_audio (s : State) (l : Lane) (v : Option Image) :
    (s.setBuffer l v).audio = s.audio := by cases l <;> rfl
@[simp] theorem State.setBuffer_slots (s : State) (l : Lane) (v : Option Image) :
    (s.setBuffer l v).slots = s.slots := by cases l <;> rfl
@[simp] theorem State.setBuffer_store (s : State) (l : Lane) (v : Option Image) :
    (s.setBuffer l v).store = s.store := by cases l <;> rfl
@[simp] theorem State.setBuffer_runner (s : State) (l : Lane) (v : Option Image) :
    (s.setBuffer l v).runner = s.runner := by cases l <;> rfl
@[simp] theorem State.setBuffer_zones (s : State) (l : Lane) (v : Option Image) :
    (s.setBuffer l v).zones = s.zones := by cases l <;> rfl
@[simp] theorem State.setBuffer_calls (s : State) (l : Lane) (v : Option Image) :
    (s.setBuffer l v).calls = s.calls := by cases l <;> rfl
@[simp] theorem State.setBuffer_watch (s : State) (l : Lane) (v : Option Image) :
    (s.setBuffer l v).watch = s.watch := by cases l <;> rfl
@[simp] theorem State.setBuffer_record (s : State) (l : Lane) (v : Option Image) :
    (s.setBuffer l v).record = s.record := by cases l <;> rfl
@[simp] theorem State.setBuffer_causes (s : State) (l : Lane) (v : Option Image) :
    (s.setBuffer l v).causes = s.causes := by cases l <;> rfl
@[simp] theorem State.setBuffer_timeBase (s : State) (l : Lane) (v : Option Image) :
    (s.setBuffer l v).timeBase = s.timeBase := by cases l <;> rfl
@[simp] theorem State.setBuffer_pending (s : State) (l : Lane) (v : Option Image) :
    (s.setBuffer l v).pending = s.pending := by cases l <;> rfl

/-! ### startPerformance -/

@[simp] theorem State.startPerformance_points (s : State) (l : LogLane) (c : Option Nat) :
    (s.startPerformance l c).points = s.points := rfl
@[simp] theorem State.startPerformance_inputMap (s : State) (l : LogLane) (c : Option Nat) :
    (s.startPerformance l c).inputMap = s.inputMap := rfl
@[simp] theorem State.startPerformance_masks (s : State) (l : LogLane) (c : Option Nat) :
    (s.startPerformance l c).masks = s.masks := rfl
@[simp] theorem State.startPerformance_audio (s : State) (l : LogLane) (c : Option Nat) :
    (s.startPerformance l c).audio = s.audio := rfl
@[simp] theorem State.startPerformance_slots (s : State) (l : LogLane) (c : Option Nat) :
    (s.startPerformance l c).slots = s.slots := rfl
@[simp] theorem State.startPerformance_store (s : State) (l : LogLane) (c : Option Nat) :
    (s.startPerformance l c).store = s.store := rfl
@[simp] theorem State.startPerformance_runner (s : State) (l : LogLane) (c : Option Nat) :
    (s.startPerformance l c).runner = s.runner := rfl
@[simp] theorem State.startPerformance_zones (s : State) (l : LogLane) (c : Option Nat) :
    (s.startPerformance l c).zones = s.zones := rfl
@[simp] theorem State.startPerformance_calls (s : State) (l : LogLane) (c : Option Nat) :
    (s.startPerformance l c).calls = s.calls := rfl
@[simp] theorem State.startPerformance_watch (s : State) (l : LogLane) (c : Option Nat) :
    (s.startPerformance l c).watch = s.watch := rfl
@[simp] theorem State.startPerformance_staging (s : State) (l : LogLane) (c : Option Nat) :
    (s.startPerformance l c).staging = s.staging := rfl
@[simp] theorem State.startPerformance_causes (s : State) (l : LogLane) (c : Option Nat) :
    (s.startPerformance l c).causes = s.causes := rfl
@[simp] theorem State.startPerformance_timeBase (s : State) (l : LogLane) (c : Option Nat) :
    (s.startPerformance l c).timeBase = s.timeBase := rfl
@[simp] theorem State.startPerformance_pending (s : State) (l : LogLane) (c : Option Nat) :
    (s.startPerformance l c).pending = s.pending := rfl

/-! ### endPerformance -/

@[simp] theorem State.endPerformance_points (s : State) (l : Lane) :
    (s.endPerformance l).points = s.points := rfl
@[simp] theorem State.endPerformance_inputMap (s : State) (l : Lane) :
    (s.endPerformance l).inputMap = s.inputMap := rfl
@[simp] theorem State.endPerformance_masks (s : State) (l : Lane) :
    (s.endPerformance l).masks = s.masks := rfl
@[simp] theorem State.endPerformance_audio (s : State) (l : Lane) :
    (s.endPerformance l).audio = s.audio := rfl
@[simp] theorem State.endPerformance_slots (s : State) (l : Lane) :
    (s.endPerformance l).slots = s.slots := rfl
@[simp] theorem State.endPerformance_store (s : State) (l : Lane) :
    (s.endPerformance l).store = s.store := rfl
@[simp] theorem State.endPerformance_runner (s : State) (l : Lane) :
    (s.endPerformance l).runner = s.runner := rfl
@[simp] theorem State.endPerformance_zones (s : State) (l : Lane) :
    (s.endPerformance l).zones = s.zones := rfl
@[simp] theorem State.endPerformance_calls (s : State) (l : Lane) :
    (s.endPerformance l).calls = s.calls := rfl
@[simp] theorem State.endPerformance_watch (s : State) (l : Lane) :
    (s.endPerformance l).watch = s.watch := rfl
@[simp] theorem State.endPerformance_staging (s : State) (l : Lane) :
    (s.endPerformance l).staging = s.staging := rfl
@[simp] theorem State.endPerformance_causes (s : State) (l : Lane) :
    (s.endPerformance l).causes = s.causes := rfl
@[simp] theorem State.endPerformance_timeBase (s : State) (l : Lane) :
    (s.endPerformance l).timeBase = s.timeBase := rfl
@[simp] theorem State.endPerformance_pending (s : State) (l : Lane) :
    (s.endPerformance l).pending = s.pending := rfl

/-! ### abandonPerformance -/

@[simp] theorem State.abandonPerformance_points (s : State) :
    (s.abandonPerformance).points = s.points := rfl
@[simp] theorem State.abandonPerformance_inputMap (s : State) :
    (s.abandonPerformance).inputMap = s.inputMap := rfl
@[simp] theorem State.abandonPerformance_masks (s : State) :
    (s.abandonPerformance).masks = s.masks := rfl
@[simp] theorem State.abandonPerformance_audio (s : State) :
    (s.abandonPerformance).audio = s.audio := rfl
@[simp] theorem State.abandonPerformance_slots (s : State) :
    (s.abandonPerformance).slots = s.slots := rfl
@[simp] theorem State.abandonPerformance_store (s : State) :
    (s.abandonPerformance).store = s.store := rfl
@[simp] theorem State.abandonPerformance_runner (s : State) :
    (s.abandonPerformance).runner = s.runner := rfl
@[simp] theorem State.abandonPerformance_zones (s : State) :
    (s.abandonPerformance).zones = s.zones := rfl
@[simp] theorem State.abandonPerformance_calls (s : State) :
    (s.abandonPerformance).calls = s.calls := rfl
@[simp] theorem State.abandonPerformance_watch (s : State) :
    (s.abandonPerformance).watch = s.watch := rfl
@[simp] theorem State.abandonPerformance_staging (s : State) :
    (s.abandonPerformance).staging = s.staging := rfl
@[simp] theorem State.abandonPerformance_causes (s : State) :
    (s.abandonPerformance).causes = s.causes := rfl
@[simp] theorem State.abandonPerformance_timeBase (s : State) :
    (s.abandonPerformance).timeBase = s.timeBase := rfl
@[simp] theorem State.abandonPerformance_pending (s : State) :
    (s.abandonPerformance).pending = s.pending := rfl

/-! ### recordGo -/

@[simp] theorem State.recordGo_points (s : State) (rec : Cue) (o : Origin) :
    (s.recordGo rec o).points = s.points := rfl
@[simp] theorem State.recordGo_inputMap (s : State) (rec : Cue) (o : Origin) :
    (s.recordGo rec o).inputMap = s.inputMap := rfl
@[simp] theorem State.recordGo_masks (s : State) (rec : Cue) (o : Origin) :
    (s.recordGo rec o).masks = s.masks := rfl
@[simp] theorem State.recordGo_audio (s : State) (rec : Cue) (o : Origin) :
    (s.recordGo rec o).audio = s.audio := rfl
@[simp] theorem State.recordGo_slots (s : State) (rec : Cue) (o : Origin) :
    (s.recordGo rec o).slots = s.slots := rfl
@[simp] theorem State.recordGo_store (s : State) (rec : Cue) (o : Origin) :
    (s.recordGo rec o).store = s.store := rfl
@[simp] theorem State.recordGo_zones (s : State) (rec : Cue) (o : Origin) :
    (s.recordGo rec o).zones = s.zones := rfl
@[simp] theorem State.recordGo_calls (s : State) (rec : Cue) (o : Origin) :
    (s.recordGo rec o).calls = s.calls := rfl
@[simp] theorem State.recordGo_watch (s : State) (rec : Cue) (o : Origin) :
    (s.recordGo rec o).watch = s.watch := rfl
@[simp] theorem State.recordGo_staging (s : State) (rec : Cue) (o : Origin) :
    (s.recordGo rec o).staging = s.staging := rfl
@[simp] theorem State.recordGo_causes (s : State) (rec : Cue) (o : Origin) :
    (s.recordGo rec o).causes = s.causes := rfl
@[simp] theorem State.recordGo_timeBase (s : State) (rec : Cue) (o : Origin) :
    (s.recordGo rec o).timeBase = s.timeBase := rfl
@[simp] theorem State.recordGo_pending (s : State) (rec : Cue) (o : Origin) :
    (s.recordGo rec o).pending = s.pending := rfl

/-! ### goLive -/

@[simp] theorem State.goLive_points (s : State) (old : ZoneSet) (c : Call) :
    (s.goLive old c).points = s.points := rfl
@[simp] theorem State.goLive_inputMap (s : State) (old : ZoneSet) (c : Call) :
    (s.goLive old c).inputMap = s.inputMap := rfl
@[simp] theorem State.goLive_masks (s : State) (old : ZoneSet) (c : Call) :
    (s.goLive old c).masks = s.masks := rfl
@[simp] theorem State.goLive_audio (s : State) (old : ZoneSet) (c : Call) :
    (s.goLive old c).audio = s.audio := rfl
@[simp] theorem State.goLive_slots (s : State) (old : ZoneSet) (c : Call) :
    (s.goLive old c).slots = s.slots := rfl
@[simp] theorem State.goLive_store (s : State) (old : ZoneSet) (c : Call) :
    (s.goLive old c).store = s.store := rfl
@[simp] theorem State.goLive_runner (s : State) (old : ZoneSet) (c : Call) :
    (s.goLive old c).runner = s.runner := rfl
@[simp] theorem State.goLive_watch (s : State) (old : ZoneSet) (c : Call) :
    (s.goLive old c).watch = s.watch := rfl
@[simp] theorem State.goLive_staging (s : State) (old : ZoneSet) (c : Call) :
    (s.goLive old c).staging = s.staging := rfl
@[simp] theorem State.goLive_causes (s : State) (old : ZoneSet) (c : Call) :
    (s.goLive old c).causes = s.causes := rfl
@[simp] theorem State.goLive_timeBase (s : State) (old : ZoneSet) (c : Call) :
    (s.goLive old c).timeBase = s.timeBase := rfl
@[simp] theorem State.goLive_pending (s : State) (old : ZoneSet) (c : Call) :
    (s.goLive old c).pending = s.pending := rfl

/-! ### restoreClock -/

@[simp] theorem State.restoreClock_points (s : State) :
    (s.restoreClock).points = s.points := rfl
@[simp] theorem State.restoreClock_inputMap (s : State) :
    (s.restoreClock).inputMap = s.inputMap := rfl
@[simp] theorem State.restoreClock_masks (s : State) :
    (s.restoreClock).masks = s.masks := rfl
@[simp] theorem State.restoreClock_slots (s : State) :
    (s.restoreClock).slots = s.slots := rfl
@[simp] theorem State.restoreClock_store (s : State) :
    (s.restoreClock).store = s.store := rfl
@[simp] theorem State.restoreClock_runner (s : State) :
    (s.restoreClock).runner = s.runner := rfl
@[simp] theorem State.restoreClock_zones (s : State) :
    (s.restoreClock).zones = s.zones := rfl
@[simp] theorem State.restoreClock_calls (s : State) :
    (s.restoreClock).calls = s.calls := rfl
@[simp] theorem State.restoreClock_watch (s : State) :
    (s.restoreClock).watch = s.watch := rfl
@[simp] theorem State.restoreClock_staging (s : State) :
    (s.restoreClock).staging = s.staging := rfl
@[simp] theorem State.restoreClock_causes (s : State) :
    (s.restoreClock).causes = s.causes := rfl
@[simp] theorem State.restoreClock_timeBase (s : State) :
    (s.restoreClock).timeBase = s.timeBase := rfl
@[simp] theorem State.restoreClock_pending (s : State) :
    (s.restoreClock).pending = s.pending := rfl

/-! ### faultOnset -/

@[simp] theorem State.faultOnset_points (s : State) :
    (s.faultOnset).points = s.points := rfl
@[simp] theorem State.faultOnset_inputMap (s : State) :
    (s.faultOnset).inputMap = s.inputMap := rfl
@[simp] theorem State.faultOnset_masks (s : State) :
    (s.faultOnset).masks = s.masks := rfl
@[simp] theorem State.faultOnset_slots (s : State) :
    (s.faultOnset).slots = s.slots := rfl
@[simp] theorem State.faultOnset_store (s : State) :
    (s.faultOnset).store = s.store := rfl
@[simp] theorem State.faultOnset_runner (s : State) :
    (s.faultOnset).runner = s.runner := rfl
@[simp] theorem State.faultOnset_zones (s : State) :
    (s.faultOnset).zones = s.zones := rfl
@[simp] theorem State.faultOnset_calls (s : State) :
    (s.faultOnset).calls = s.calls := rfl
@[simp] theorem State.faultOnset_staging (s : State) :
    (s.faultOnset).staging = s.staging := rfl
@[simp] theorem State.faultOnset_causes (s : State) :
    (s.faultOnset).causes = s.causes := rfl
@[simp] theorem State.faultOnset_timeBase (s : State) :
    (s.faultOnset).timeBase = s.timeBase := rfl
@[simp] theorem State.faultOnset_pending (s : State) :
    (s.faultOnset).pending = s.pending := rfl

/-! ### endAssembly -/

@[simp] theorem State.endAssembly_points (s : State) (l : Lane) :
    (s.endAssembly l).points = s.points := rfl
@[simp] theorem State.endAssembly_inputMap (s : State) (l : Lane) :
    (s.endAssembly l).inputMap = s.inputMap := rfl
@[simp] theorem State.endAssembly_masks (s : State) (l : Lane) :
    (s.endAssembly l).masks = s.masks := rfl
@[simp] theorem State.endAssembly_audio (s : State) (l : Lane) :
    (s.endAssembly l).audio = s.audio := rfl
@[simp] theorem State.endAssembly_slots (s : State) (l : Lane) :
    (s.endAssembly l).slots = s.slots := rfl
@[simp] theorem State.endAssembly_store (s : State) (l : Lane) :
    (s.endAssembly l).store = s.store := rfl
@[simp] theorem State.endAssembly_runner (s : State) (l : Lane) :
    (s.endAssembly l).runner = s.runner := rfl
@[simp] theorem State.endAssembly_zones (s : State) (l : Lane) :
    (s.endAssembly l).zones = s.zones := rfl
@[simp] theorem State.endAssembly_calls (s : State) (l : Lane) :
    (s.endAssembly l).calls = s.calls := rfl
@[simp] theorem State.endAssembly_watch (s : State) (l : Lane) :
    (s.endAssembly l).watch = s.watch := rfl
@[simp] theorem State.endAssembly_record (s : State) (l : Lane) :
    (s.endAssembly l).record = s.record := rfl
@[simp] theorem State.endAssembly_staging (s : State) (l : Lane) :
    (s.endAssembly l).staging = s.staging := rfl
@[simp] theorem State.endAssembly_causes (s : State) (l : Lane) :
    (s.endAssembly l).causes = s.causes := rfl
@[simp] theorem State.endAssembly_timeBase (s : State) (l : Lane) :
    (s.endAssembly l).timeBase = s.timeBase := rfl
@[simp] theorem State.endAssembly_pending (s : State) (l : Lane) :
    (s.endAssembly l).pending = s.pending := rfl

/-! ### enterSlot -/

@[simp] theorem State.enterSlot_points (s : State) (l : Lane) (f : Frame) :
    (s.enterSlot l f).points = s.points := rfl
@[simp] theorem State.enterSlot_inputMap (s : State) (l : Lane) (f : Frame) :
    (s.enterSlot l f).inputMap = s.inputMap := rfl
@[simp] theorem State.enterSlot_masks (s : State) (l : Lane) (f : Frame) :
    (s.enterSlot l f).masks = s.masks := rfl
@[simp] theorem State.enterSlot_audio (s : State) (l : Lane) (f : Frame) :
    (s.enterSlot l f).audio = s.audio := rfl
@[simp] theorem State.enterSlot_slots (s : State) (l : Lane) (f : Frame) :
    (s.enterSlot l f).slots = s.slots := rfl
@[simp] theorem State.enterSlot_store (s : State) (l : Lane) (f : Frame) :
    (s.enterSlot l f).store = s.store := rfl
@[simp] theorem State.enterSlot_runner (s : State) (l : Lane) (f : Frame) :
    (s.enterSlot l f).runner = s.runner := rfl
@[simp] theorem State.enterSlot_zones (s : State) (l : Lane) (f : Frame) :
    (s.enterSlot l f).zones = s.zones := rfl
@[simp] theorem State.enterSlot_calls (s : State) (l : Lane) (f : Frame) :
    (s.enterSlot l f).calls = s.calls := rfl
@[simp] theorem State.enterSlot_watch (s : State) (l : Lane) (f : Frame) :
    (s.enterSlot l f).watch = s.watch := rfl
@[simp] theorem State.enterSlot_record (s : State) (l : Lane) (f : Frame) :
    (s.enterSlot l f).record = s.record := rfl
@[simp] theorem State.enterSlot_staging (s : State) (l : Lane) (f : Frame) :
    (s.enterSlot l f).staging = s.staging := rfl
@[simp] theorem State.enterSlot_causes (s : State) (l : Lane) (f : Frame) :
    (s.enterSlot l f).causes = s.causes := rfl
@[simp] theorem State.enterSlot_timeBase (s : State) (l : Lane) (f : Frame) :
    (s.enterSlot l f).timeBase = s.timeBase := rfl
@[simp] theorem State.enterSlot_pending (s : State) (l : Lane) (f : Frame) :
    (s.enterSlot l f).pending = s.pending := rfl

/-! ### dropFrame -/

@[simp] theorem State.dropFrame_points (s : State) (l : Lane) :
    (s.dropFrame l).points = s.points := rfl
@[simp] theorem State.dropFrame_inputMap (s : State) (l : Lane) :
    (s.dropFrame l).inputMap = s.inputMap := rfl
@[simp] theorem State.dropFrame_masks (s : State) (l : Lane) :
    (s.dropFrame l).masks = s.masks := rfl
@[simp] theorem State.dropFrame_audio (s : State) (l : Lane) :
    (s.dropFrame l).audio = s.audio := rfl
@[simp] theorem State.dropFrame_slots (s : State) (l : Lane) :
    (s.dropFrame l).slots = s.slots := rfl
@[simp] theorem State.dropFrame_store (s : State) (l : Lane) :
    (s.dropFrame l).store = s.store := rfl
@[simp] theorem State.dropFrame_runner (s : State) (l : Lane) :
    (s.dropFrame l).runner = s.runner := rfl
@[simp] theorem State.dropFrame_zones (s : State) (l : Lane) :
    (s.dropFrame l).zones = s.zones := rfl
@[simp] theorem State.dropFrame_calls (s : State) (l : Lane) :
    (s.dropFrame l).calls = s.calls := rfl
@[simp] theorem State.dropFrame_watch (s : State) (l : Lane) :
    (s.dropFrame l).watch = s.watch := rfl
@[simp] theorem State.dropFrame_record (s : State) (l : Lane) :
    (s.dropFrame l).record = s.record := rfl
@[simp] theorem State.dropFrame_staging (s : State) (l : Lane) :
    (s.dropFrame l).staging = s.staging := rfl
@[simp] theorem State.dropFrame_causes (s : State) (l : Lane) :
    (s.dropFrame l).causes = s.causes := rfl
@[simp] theorem State.dropFrame_timeBase (s : State) (l : Lane) :
    (s.dropFrame l).timeBase = s.timeBase := rfl
@[simp] theorem State.dropFrame_pending (s : State) (l : Lane) :
    (s.dropFrame l).pending = s.pending := rfl

/-! ### setStandby -/

@[simp] theorem State.setStandby_points (s : State) (x : Option Nat) :
    (s.setStandby x).points = s.points := by unfold State.setStandby; split <;> rfl
@[simp] theorem State.setStandby_inputMap (s : State) (x : Option Nat) :
    (s.setStandby x).inputMap = s.inputMap := by unfold State.setStandby; split <;> rfl
@[simp] theorem State.setStandby_masks (s : State) (x : Option Nat) :
    (s.setStandby x).masks = s.masks := by unfold State.setStandby; split <;> rfl
@[simp] theorem State.setStandby_audio (s : State) (x : Option Nat) :
    (s.setStandby x).audio = s.audio := by unfold State.setStandby; split <;> rfl
@[simp] theorem State.setStandby_slots (s : State) (x : Option Nat) :
    (s.setStandby x).slots = s.slots := by unfold State.setStandby; split <;> rfl
@[simp] theorem State.setStandby_store (s : State) (x : Option Nat) :
    (s.setStandby x).store = s.store := by unfold State.setStandby; split <;> rfl
@[simp] theorem State.setStandby_zones (s : State) (x : Option Nat) :
    (s.setStandby x).zones = s.zones := by unfold State.setStandby; split <;> rfl
@[simp] theorem State.setStandby_calls (s : State) (x : Option Nat) :
    (s.setStandby x).calls = s.calls := by unfold State.setStandby; split <;> rfl
@[simp] theorem State.setStandby_watch (s : State) (x : Option Nat) :
    (s.setStandby x).watch = s.watch := by unfold State.setStandby; split <;> rfl
@[simp] theorem State.setStandby_record (s : State) (x : Option Nat) :
    (s.setStandby x).record = s.record := by unfold State.setStandby; split <;> rfl
@[simp] theorem State.setStandby_staging (s : State) (x : Option Nat) :
    (s.setStandby x).staging = s.staging := by unfold State.setStandby; split <;> rfl
@[simp] theorem State.setStandby_causes (s : State) (x : Option Nat) :
    (s.setStandby x).causes = s.causes := by unfold State.setStandby; split <;> rfl
@[simp] theorem State.setStandby_timeBase (s : State) (x : Option Nat) :
    (s.setStandby x).timeBase = s.timeBase := by unfold State.setStandby; split <;> rfl
@[simp] theorem State.setStandby_pending (s : State) (x : Option Nat) :
    (s.setStandby x).pending = s.pending := by unfold State.setStandby; split <;> rfl

/-! ### engineReset -/

@[simp] theorem State.engineReset_inputMap (s : State) (l : Lane) :
    (s.engineReset l).inputMap = s.inputMap := rfl
@[simp] theorem State.engineReset_masks (s : State) (l : Lane) :
    (s.engineReset l).masks = s.masks := rfl
@[simp] theorem State.engineReset_audio (s : State) (l : Lane) :
    (s.engineReset l).audio = s.audio := rfl
@[simp] theorem State.engineReset_store (s : State) (l : Lane) :
    (s.engineReset l).store = s.store := rfl
@[simp] theorem State.engineReset_timeBase (s : State) (l : Lane) :
    (s.engineReset l).timeBase = s.timeBase := rfl
@[simp] theorem State.engineReset_pending (s : State) (l : Lane) :
    (s.engineReset l).pending = s.pending := rfl

end Sys2Proof.Machine
end

