-- ==== Sys2Proof/Laws/Tables.lean ====
section
/-! SUPPORT. Reading a numbered table or a per-lane value after it has been changed, and the same for each piece of state that
is read through a table: a point, a slot, a zone, a trigger line, a watch record, a staging buffer, a lane. -/

namespace Sys2Proof

/-! ## Tables -/

theorem Table.getD_update {α : Type} {n : Nat} (t : Table α n) (i j : Nat) (f : α → α) (d : α) :
    (t.update i f).getD j d = if j = i ∧ j < n then f (t.getD j d) else t.getD j d := by
  obtain ⟨l, hl⟩ := t
  unfold Table.update Table.getD
  simp only [List.getElem?_modify]
  by_cases h : i = j
  · subst h
    by_cases hi : i < n
    · simp [hl, hi]
    · simp [hl, hi]
  · have h' : j ≠ i := fun e => h e.symm
    simp [h, h']

theorem Table.getD_update_self {α : Type} {n : Nat} (t : Table α n) (i : Nat) (f : α → α) (d : α) (h : i < n) :
    (t.update i f).getD i d = f (t.getD i d) := by rw [Table.getD_update, if_pos ⟨rfl, h⟩]

theorem Table.getD_update_ne {α : Type} {n : Nat} (t : Table α n) (i j : Nat) (f : α → α) (d : α) (h : j ≠ i) :
    (t.update i f).getD j d = t.getD j d := by rw [Table.getD_update, if_neg fun e => h e.1]

theorem Table.getD_of_le {α : Type} {n : Nat} (t : Table α n) (j : Nat) (d : α) (h : n ≤ j) : t.getD j d = d := by
  obtain ⟨l, hl⟩ := t
  simp [Table.getD, hl, h]

theorem getElem?_mapFrom {α β : Type} (f : Nat → α → β) (k : Nat) (xs : List α) (j : Nat) :
    (mapFrom f k xs)[j]? = xs[j]?.map (f (k + j)) := by
  induction xs generalizing k j with
  | nil => simp [mapFrom]
  | cons x xs ih =>
    cases j with
    | zero => simp [mapFrom]
    | succ j => simp only [mapFrom, List.getElem?_cons_succ, ih]; congr 2; omega

theorem Table.getD_mapIdx {α β : Type} {n : Nat} (f : Nat → α → β) (t : Table α n) (j : Nat) (d : β) (e : α) (h : j < n) :
    (t.mapIdx f).getD j d = f j (t.getD j e) := by
  obtain ⟨l, hl⟩ := t
  simp [Table.getD, Table.mapIdx, getElem?_mapFrom, hl, h]

theorem Table.getD_replicate {α : Type} (n : Nat) (a d : α) (j : Nat) (h : j < n) :
    (Table.replicate n a).getD j d = a := by
  simp [Table.getD, Table.replicate, h]

theorem Table.getD_tabulate {α : Type} (n : Nat) (f : Nat → α) (d : α) (j : Nat) (h : j < n) :
    (Table.tabulate n f).getD j d = f j := by
  simp [Table.getD, Table.tabulate, h]

/-- Two tables that read alike at every number are one. -/
theorem Table.ext_getD {α : Type} {n : Nat} (t u : Table α n) (d : α) (h : ∀ j, j < n → t.getD j d = u.getD j d) :
    t = u := by
  obtain ⟨l, hl⟩ := t
  obtain ⟨m, hm⟩ := u
  have : l = m := by
    apply List.ext_getElem
    · rw [hl, hm]
    · intro i h1 h2
      have := h i (hl ▸ h1)
      simpa [Table.getD, h1, h2] using this
  subst this
  rfl

namespace Machine

/-! ## Lanes -/

theorem PerLane.get_modify {α : Type} (v : PerLane α) (l m : Lane) (f : α → α) :
    (v.modify l f).get m = if m = l then f (v.get m) else v.get m := by
  cases l <;> cases m <;> rfl

@[simp] theorem PerLane.get_modify_self {α : Type} (v : PerLane α) (l : Lane) (f : α → α) :
    (v.modify l f).get l = f (v.get l) := by cases l <;> rfl

@[simp] theorem PerLane.get_map {α : Type} (v : PerLane α) (f : α → α) (l : Lane) :
    (v.map f).get l = f (v.get l) := by cases l <;> rfl

theorem State.lane_onLane (s : State) (l m : Lane) (f : LaneState → LaneState) :
    (s.onLane l f).lanes.get m = if m = l then f (s.lanes.get m) else s.lanes.get m :=
  PerLane.get_modify s.lanes l m f

@[simp] theorem State.lane_noticeAll (s : State) (k : Notice) (l : Lane) :
    (s.noticeAll k).lanes.get l = (s.lanes.get l).notify k := PerLane.get_map _ _ _

theorem State.lane_noticeOthers (s : State) (l m : Lane) (k : Notice) :
    (s.noticeOthers l k).lanes.get m = if m = l then s.lanes.get m else (s.lanes.get m).notify k := by
  cases l <;> cases m <;> rfl

/-- What a reply does: the lane holds the request's frame in its slot and the reply's characters. -/
theorem State.answer_eq (s : State) (i : Instr) (l : Lane) (f : Frame) (st : Status) (b : List Byte)
    (h : requestFrame i = some (l, f)) : s.answer i st b = s.reply l f st b := by
  simp [State.answer, h]

/-! ## Points, slots, zones, lines, watch records, buffers -/

theorem State.point_onPoint (s : State) (p q : Nat) (f : Point → Point) :
    (s.onPoint p f).point q = if q = p ∧ q < Config.points then f (s.point q) else s.point q :=
  Table.getD_update _ _ _ _ _

theorem State.slot_setSlot (s : State) (k j : Nat) (v : Option FadeSlot) :
    (s.setSlot k v).slot j = if j = k ∧ j < Config.slots then v else s.slot j :=
  Table.getD_update _ _ _ _ _

theorem State.zone_onZone (s : State) (z y : Nat) (f : Zone → Zone) :
    (s.onZone z f).zone y = if y = z ∧ y < Config.zones then f (s.zone y) else s.zone y :=
  Table.getD_update _ _ _ _ _

theorem State.line_setLine (s : State) (n m : Nat) (v : LineState) :
    (s.setLine n v).line m = if m = n ∧ m < Config.lines then v else s.line m :=
  Table.getD_update _ _ _ _ _

theorem State.watchZone_onWatchZone (s : State) (z y : Nat) (f : WatchZone → WatchZone) :
    (s.onWatchZone z f).watchZone y = if y = z ∧ y < Config.zones then f (s.watchZone y) else s.watchZone y :=
  Table.getD_update _ _ _ _ _

theorem State.buffer_setBuffer (s : State) (l m : Lane) (v : Option Image) :
    (s.setBuffer l v).buffer m = if m = l ∧ m ≠ .p then v else s.buffer m := by
  cases l <;> cases m <;> rfl

theorem State.mask_setMask (s : State) (m k : Nat) (on : Bool) :
    (s.setMask m on).masks.getD k false = if k = m ∧ k < Config.mixes then on else s.masks.getD k false :=
  Table.getD_update _ _ _ _ _

theorem State.point_freezeFades (s : State) (p : Nat) :
    s.freezeFades.point p = { s.point p with membership := none } := by
  by_cases h : p < Config.points
  · exact Table.getD_mapIdx _ _ _ _ _ h
  · have h' : Config.points ≤ p := Nat.le_of_not_lt h
    have h1 : s.freezeFades.point p = {} := Table.getD_of_le _ _ _ h'
    have h2 : s.point p = {} := Table.getD_of_le _ _ _ h'
    rw [h1, h2]

theorem State.slot_freezeFades (s : State) (k : Nat) : s.freezeFades.slot k = none := by
  by_cases h : k < Config.slots
  · exact Table.getD_replicate _ _ _ _ h
  · exact Table.getD_of_le _ _ _ (Nat.le_of_not_lt h)

/-! ## Points changed in order -/

/-- Points changed in order by one function: a point named is changed once where no point is named twice. -/
theorem State.point_onPoints (ps : List Nat) (f : Point → Point) (s : State) (q : Nat) (hn : ps.Nodup) :
    (s.onPoints ps f).point q = if q ∈ ps ∧ q < Config.points then f (s.point q) else s.point q := by
  induction ps generalizing s with
  | nil => simp [State.onPoints]
  | cons p ps ih =>
    rw [List.nodup_cons] at hn
    have step : s.onPoints (p :: ps) f = (s.onPoint p f).onPoints ps f := rfl
    rw [step, ih _ hn.2, State.point_onPoint]
    by_cases hq : q = p
    · subst hq
      simp [hn.1]
    · simp [hq]

end Machine

end Sys2Proof
end

