-- ==== Sys2Proof/Laws/Frames.lean ====
section
/-! SUPPORT. The fields that each shared operation leaves as they stand, where the operation branches or runs over a list: what
it may write is what no lemma here says it keeps. -/

namespace Sys2Proof.Machine

/-! ### checkCompletion -/

@[simp] theorem State.checkCompletion_points (s : State) (c : Nat) :
    (s.checkCompletion c).points = s.points := by
  unfold State.checkCompletion; repeat' (first | split | dsimp only)
  all_goals (try simp)
@[simp] theorem State.checkCompletion_inputMap (s : State) (c : Nat) :
    (s.checkCompletion c).inputMap = s.inputMap := by
  unfold State.checkCompletion; repeat' (first | split | dsimp only)
  all_goals (try simp)
@[simp] theorem State.checkCompletion_masks (s : State) (c : Nat) :
    (s.checkCompletion c).masks = s.masks := by
  unfold State.checkCompletion; repeat' (first | split | dsimp only)
  all_goals (try simp)
@[simp] theorem State.checkCompletion_audio (s : State) (c : Nat) :
    (s.checkCompletion c).audio = s.audio := by
  unfold State.checkCompletion; repeat' (first | split | dsimp only)
  all_goals (try simp)
@[simp] theorem State.checkCompletion_slots (s : State) (c : Nat) :
    (s.checkCompletion c).slots = s.slots := by
  unfold State.checkCompletion; repeat' (first | split | dsimp only)
  all_goals (try simp)
@[simp] theorem State.checkCompletion_store (s : State) (c : Nat) :
    (s.checkCompletion c).store = s.store := by
  unfold State.checkCompletion; repeat' (first | split | dsimp only)
  all_goals (try simp)
@[simp] theorem State.checkCompletion_zones (s : State) (c : Nat) :
    (s.checkCompletion c).zones = s.zones := by
  unfold State.checkCompletion; repeat' (first | split | dsimp only)
  all_goals (try simp)
@[simp] theorem State.checkCompletion_calls (s : State) (c : Nat) :
    (s.checkCompletion c).calls = s.calls := by
  unfold State.checkCompletion; repeat' (first | split | dsimp only)
  all_goals (try simp)
@[simp] theorem State.checkCompletion_watch (s : State) (c : Nat) :
    (s.checkCompletion c).watch = s.watch := by
  unfold State.checkCompletion; repeat' (first | split | dsimp only)
  all_goals (try simp)
@[simp] theorem State.checkCompletion_record (s : State) (c : Nat) :
    (s.checkCompletion c).record = s.record := by
  unfold State.checkCompletion; repeat' (first | split | dsimp only)
  all_goals (try simp)
@[simp] theorem State.checkCompletion_staging (s : State) (c : Nat) :
    (s.checkCompletion c).staging = s.staging := by
  unfold State.checkCompletion; repeat' (first | split | dsimp only)
  all_goals (try simp)
@[simp] theorem State.checkCompletion_causes (s : State) (c : Nat) :
    (s.checkCompletion c).causes = s.causes := by
  unfold State.checkCompletion; repeat' (first | split | dsimp only)
  all_goals (try simp)
@[simp] theorem State.checkCompletion_timeBase (s : State) (c : Nat) :
    (s.checkCompletion c).timeBase = s.timeBase := by
  unfold State.checkCompletion; repeat' (first | split | dsimp only)
  all_goals (try simp)
@[simp] theorem State.checkCompletion_pending (s : State) (c : Nat) :
    (s.checkCompletion c).pending = s.pending := by
  unfold State.checkCompletion; repeat' (first | split | dsimp only)
  all_goals (try simp)

/-! ### freeingReport -/

@[simp] theorem State.freeingReport_points (s : State) (c : Nat) :
    (s.freeingReport c).points = s.points := by simp [State.freeingReport]
@[simp] theorem State.freeingReport_inputMap (s : State) (c : Nat) :
    (s.freeingReport c).inputMap = s.inputMap := by simp [State.freeingReport]
@[simp] theorem State.freeingReport_masks (s : State) (c : Nat) :
    (s.freeingReport c).masks = s.masks := by simp [State.freeingReport]
@[simp] theorem State.freeingReport_audio (s : State) (c : Nat) :
    (s.freeingReport c).audio = s.audio := by simp [State.freeingReport]
@[simp] theorem State.freeingReport_slots (s : State) (c : Nat) :
    (s.freeingReport c).slots = s.slots := by simp [State.freeingReport]
@[simp] theorem State.freeingReport_store (s : State) (c : Nat) :
    (s.freeingReport c).store = s.store := by simp [State.freeingReport]
@[simp] theorem State.freeingReport_zones (s : State) (c : Nat) :
    (s.freeingReport c).zones = s.zones := by simp [State.freeingReport]
@[simp] theorem State.freeingReport_calls (s : State) (c : Nat) :
    (s.freeingReport c).calls = s.calls := by simp [State.freeingReport]
@[simp] theorem State.freeingReport_watch (s : State) (c : Nat) :
    (s.freeingReport c).watch = s.watch := by simp [State.freeingReport]
@[simp] theorem State.freeingReport_record (s : State) (c : Nat) :
    (s.freeingReport c).record = s.record := by simp [State.freeingReport]
@[simp] theorem State.freeingReport_staging (s : State) (c : Nat) :
    (s.freeingReport c).staging = s.staging := by simp [State.freeingReport]
@[simp] theorem State.freeingReport_causes (s : State) (c : Nat) :
    (s.freeingReport c).causes = s.causes := by simp [State.freeingReport]
@[simp] theorem State.freeingReport_timeBase (s : State) (c : Nat) :
    (s.freeingReport c).timeBase = s.timeBase := by simp [State.freeingReport]
@[simp] theorem State.freeingReport_pending (s : State) (c : Nat) :
    (s.freeingReport c).pending = s.pending := by simp [State.freeingReport]

/-! ### snapReport -/

@[simp] theorem State.snapReport_lanes (s : State) (o : Option Nat) (c i n : Nat) :
    (s.snapReport o c i n).lanes = s.lanes := by cases o <;> simp [State.snapReport]
@[simp] theorem State.snapReport_points (s : State) (o : Option Nat) (c i n : Nat) :
    (s.snapReport o c i n).points = s.points := by cases o <;> simp [State.snapReport]
@[simp] theorem State.snapReport_inputMap (s : State) (o : Option Nat) (c i n : Nat) :
    (s.snapReport o c i n).inputMap = s.inputMap := by cases o <;> simp [State.snapReport]
@[simp] theorem State.snapReport_masks (s : State) (o : Option Nat) (c i n : Nat) :
    (s.snapReport o c i n).masks = s.masks := by cases o <;> simp [State.snapReport]
@[simp] theorem State.snapReport_audio (s : State) (o : Option Nat) (c i n : Nat) :
    (s.snapReport o c i n).audio = s.audio := by cases o <;> simp [State.snapReport]
@[simp] theorem State.snapReport_slots (s : State) (o : Option Nat) (c i n : Nat) :
    (s.snapReport o c i n).slots = s.slots := by cases o <;> simp [State.snapReport]
@[simp] theorem State.snapReport_store (s : State) (o : Option Nat) (c i n : Nat) :
    (s.snapReport o c i n).store = s.store := by cases o <;> simp [State.snapReport]
@[simp] theorem State.snapReport_zones (s : State) (o : Option Nat) (c i n : Nat) :
    (s.snapReport o c i n).zones = s.zones := by cases o <;> simp [State.snapReport]
@[simp] theorem State.snapReport_calls (s : State) (o : Option Nat) (c i n : Nat) :
    (s.snapReport o c i n).calls = s.calls := by cases o <;> simp [State.snapReport]
@[simp] theorem State.snapReport_watch (s : State) (o : Option Nat) (c i n : Nat) :
    (s.snapReport o c i n).watch = s.watch := by cases o <;> simp [State.snapReport]
@[simp] theorem State.snapReport_staging (s : State) (o : Option Nat) (c i n : Nat) :
    (s.snapReport o c i n).staging = s.staging := by cases o <;> simp [State.snapReport]
@[simp] theorem State.snapReport_causes (s : State) (o : Option Nat) (c i n : Nat) :
    (s.snapReport o c i n).causes = s.causes := by cases o <;> simp [State.snapReport]
@[simp] theorem State.snapReport_timeBase (s : State) (o : Option Nat) (c i n : Nat) :
    (s.snapReport o c i n).timeBase = s.timeBase := by cases o <;> simp [State.snapReport]
@[simp] theorem State.snapReport_pending (s : State) (o : Option Nat) (c i n : Nat) :
    (s.snapReport o c i n).pending = s.pending := by cases o <;> simp [State.snapReport]

/-! ### reportFreed -/

@[simp] theorem State.reportFreed_points (s : State) (o : Option Nat) :
    (s.reportFreed o).points = s.points := by cases o <;> simp [State.reportFreed]
@[simp] theorem State.reportFreed_inputMap (s : State) (o : Option Nat) :
    (s.reportFreed o).inputMap = s.inputMap := by cases o <;> simp [State.reportFreed]
@[simp] theorem State.reportFreed_masks (s : State) (o : Option Nat) :
    (s.reportFreed o).masks = s.masks := by cases o <;> simp [State.reportFreed]
@[simp] theorem State.reportFreed_audio (s : State) (o : Option Nat) :
    (s.reportFreed o).audio = s.audio := by cases o <;> simp [State.reportFreed]
@[simp] theorem State.reportFreed_slots (s : State) (o : Option Nat) :
    (s.reportFreed o).slots = s.slots := by cases o <;> simp [State.reportFreed]
@[simp] theorem State.reportFreed_store (s : State) (o : Option Nat) :
    (s.reportFreed o).store = s.store := by cases o <;> simp [State.reportFreed]
@[simp] theorem State.reportFreed_zones (s : State) (o : Option Nat) :
    (s.reportFreed o).zones = s.zones := by cases o <;> simp [State.reportFreed]
@[simp] theorem State.reportFreed_calls (s : State) (o : Option Nat) :
    (s.reportFreed o).calls = s.calls := by cases o <;> simp [State.reportFreed]
@[simp] theorem State.reportFreed_watch (s : State) (o : Option Nat) :
    (s.reportFreed o).watch = s.watch := by cases o <;> simp [State.reportFreed]
@[simp] theorem State.reportFreed_record (s : State) (o : Option Nat) :
    (s.reportFreed o).record = s.record := by cases o <;> simp [State.reportFreed]
@[simp] theorem State.reportFreed_staging (s : State) (o : Option Nat) :
    (s.reportFreed o).staging = s.staging := by cases o <;> simp [State.reportFreed]
@[simp] theorem State.reportFreed_causes (s : State) (o : Option Nat) :
    (s.reportFreed o).causes = s.causes := by cases o <;> simp [State.reportFreed]
@[simp] theorem State.reportFreed_timeBase (s : State) (o : Option Nat) :
    (s.reportFreed o).timeBase = s.timeBase := by cases o <;> simp [State.reportFreed]
@[simp] theorem State.reportFreed_pending (s : State) (o : Option Nat) :
    (s.reportFreed o).pending = s.pending := by cases o <;> simp [State.reportFreed]

/-! ### leave -/

@[simp] theorem State.leave_inputMap (s : State) (p : Nat) :
    (s.leave p).inputMap = s.inputMap := by
  unfold State.leave; repeat' (first | split | dsimp only)
  all_goals (try simp)
@[simp] theorem State.leave_masks (s : State) (p : Nat) :
    (s.leave p).masks = s.masks := by
  unfold State.leave; repeat' (first | split | dsimp only)
  all_goals (try simp)
@[simp] theorem State.leave_audio (s : State) (p : Nat) :
    (s.leave p).audio = s.audio := by
  unfold State.leave; repeat' (first | split | dsimp only)
  all_goals (try simp)
@[simp] theorem State.leave_store (s : State) (p : Nat) :
    (s.leave p).store = s.store := by
  unfold State.leave; repeat' (first | split | dsimp only)
  all_goals (try simp)
@[simp] theorem State.leave_zones (s : State) (p : Nat) :
    (s.leave p).zones = s.zones := by
  unfold State.leave; repeat' (first | split | dsimp only)
  all_goals (try simp)
@[simp] theorem State.leave_calls (s : State) (p : Nat) :
    (s.leave p).calls = s.calls := by
  unfold State.leave; repeat' (first | split | dsimp only)
  all_goals (try simp)
@[simp] theorem State.leave_watch (s : State) (p : Nat) :
    (s.leave p).watch = s.watch := by
  unfold State.leave; repeat' (first | split | dsimp only)
  all_goals (try simp)
@[simp] theorem State.leave_record (s : State) (p : Nat) :
    (s.leave p).record = s.record := by
  unfold State.leave; repeat' (first | split | dsimp only)
  all_goals (try simp)
@[simp] theorem State.leave_staging (s : State) (p : Nat) :
    (s.leave p).staging = s.staging := by
  unfold State.leave; repeat' (first | split | dsimp only)
  all_goals (try simp)
@[simp] theorem State.leave_causes (s : State) (p : Nat) :
    (s.leave p).causes = s.causes := by
  unfold State.leave; repeat' (first | split | dsimp only)
  all_goals (try simp)
@[simp] theorem State.leave_timeBase (s : State) (p : Nat) :
    (s.leave p).timeBase = s.timeBase := by
  unfold State.leave; repeat' (first | split | dsimp only)
  all_goals (try simp)
@[simp] theorem State.leave_pending (s : State) (p : Nat) :
    (s.leave p).pending = s.pending := by
  unfold State.leave; repeat' (first | split | dsimp only)
  all_goals (try simp)

/-! ### leaveAll -/

@[simp] theorem State.leaveAll_inputMap (s : State) (ps : List Nat) :
    (s.leaveAll ps).inputMap = s.inputMap := by
  unfold State.leaveAll
  induction ps generalizing s with
  | nil => rfl
  | cons p ps ih => simp [ih]
@[simp] theorem State.leaveAll_masks (s : State) (ps : List Nat) :
    (s.leaveAll ps).masks = s.masks := by
  unfold State.leaveAll
  induction ps generalizing s with
  | nil => rfl
  | cons p ps ih => simp [ih]
@[simp] theorem State.leaveAll_audio (s : State) (ps : List Nat) :
    (s.leaveAll ps).audio = s.audio := by
  unfold State.leaveAll
  induction ps generalizing s with
  | nil => rfl
  | cons p ps ih => simp [ih]
@[simp] theorem State.leaveAll_store (s : State) (ps : List Nat) :
    (s.leaveAll ps).store = s.store := by
  unfold State.leaveAll
  induction ps generalizing s with
  | nil => rfl
  | cons p ps ih => simp [ih]
@[simp] theorem State.leaveAll_zones (s : State) (ps : List Nat) :
    (s.leaveAll ps).zones = s.zones := by
  unfold State.leaveAll
  induction ps generalizing s with
  | nil => rfl
  | cons p ps ih => simp [ih]
@[simp] theorem State.leaveAll_calls (s : State) (ps : List Nat) :
    (s.leaveAll ps).calls = s.calls := by
  unfold State.leaveAll
  induction ps generalizing s with
  | nil => rfl
  | cons p ps ih => simp [ih]
@[simp] theorem State.leaveAll_watch (s : State) (ps : List Nat) :
    (s.leaveAll ps).watch = s.watch := by
  unfold State.leaveAll
  induction ps generalizing s with
  | nil => rfl
  | cons p ps ih => simp [ih]
@[simp] theorem State.leaveAll_record (s : State) (ps : List Nat) :
    (s.leaveAll ps).record = s.record := by
  unfold State.leaveAll
  induction ps generalizing s with
  | nil => rfl
  | cons p ps ih => simp [ih]
@[simp] theorem State.leaveAll_staging (s : State) (ps : List Nat) :
    (s.leaveAll ps).staging = s.staging := by
  unfold State.leaveAll
  induction ps generalizing s with
  | nil => rfl
  | cons p ps ih => simp [ih]
@[simp] theorem State.leaveAll_causes (s : State) (ps : List Nat) :
    (s.leaveAll ps).causes = s.causes := by
  unfold State.leaveAll
  induction ps generalizing s with
  | nil => rfl
  | cons p ps ih => simp [ih]
@[simp] theorem State.leaveAll_timeBase (s : State) (ps : List Nat) :
    (s.leaveAll ps).timeBase = s.timeBase := by
  unfold State.leaveAll
  induction ps generalizing s with
  | nil => rfl
  | cons p ps ih => simp [ih]
@[simp] theorem State.leaveAll_pending (s : State) (ps : List Nat) :
    (s.leaveAll ps).pending = s.pending := by
  unfold State.leaveAll
  induction ps generalizing s with
  | nil => rfl
  | cons p ps ih => simp [ih]

/-! ### onPoints -/

@[simp] theorem State.onPoints_lanes (s : State) (ps : List Nat) (f : Point → Point) :
    (s.onPoints ps f).lanes = s.lanes := by
  unfold State.onPoints
  induction ps generalizing s with
  | nil => rfl
  | cons p ps ih => simp [ih]
@[simp] theorem State.onPoints_inputMap (s : State) (ps : List Nat) (f : Point → Point) :
    (s.onPoints ps f).inputMap = s.inputMap := by
  unfold State.onPoints
  induction ps generalizing s with
  | nil => rfl
  | cons p ps ih => simp [ih]
@[simp] theorem State.onPoints_masks (s : State) (ps : List Nat) (f : Point → Point) :
    (s.onPoints ps f).masks = s.masks := by
  unfold State.onPoints
  induction ps generalizing s with
  | nil => rfl
  | cons p ps ih => simp [ih]
@[simp] theorem State.onPoints_audio (s : State) (ps : List Nat) (f : Point → Point) :
    (s.onPoints ps f).audio = s.audio := by
  unfold State.onPoints
  induction ps generalizing s with
  | nil => rfl
  | cons p ps ih => simp [ih]
@[simp] theorem State.onPoints_slots (s : State) (ps : List Nat) (f : Point → Point) :
    (s.onPoints ps f).slots = s.slots := by
  unfold State.onPoints
  induction ps generalizing s with
  | nil => rfl
  | cons p ps ih => simp [ih]
@[simp] theorem State.onPoints_store (s : State) (ps : List Nat) (f : Point → Point) :
    (s.onPoints ps f).store = s.store := by
  unfold State.onPoints
  induction ps generalizing s with
  | nil => rfl
  | cons p ps ih => simp [ih]
@[simp] theorem State.onPoints_runner (s : State) (ps : List Nat) (f : Point → Point) :
    (s.onPoints ps f).runner = s.runner := by
  unfold State.onPoints
  induction ps generalizing s with
  | nil => rfl
  | cons p ps ih => simp [ih]
@[simp] theorem State.onPoints_zones (s : State) (ps : List Nat) (f : Point → Point) :
    (s.onPoints ps f).zones = s.zones := by
  unfold State.onPoints
  induction ps generalizing s with
  | nil => rfl
  | cons p ps ih => simp [ih]
@[simp] theorem State.onPoints_calls (s : State) (ps : List Nat) (f : Point → Point) :
    (s.onPoints ps f).calls = s.calls := by
  unfold State.onPoints
  induction ps generalizing s with
  | nil => rfl
  | cons p ps ih => simp [ih]
@[simp] theorem State.onPoints_watch (s : State) (ps : List Nat) (f : Point → Point) :
    (s.onPoints ps f).watch = s.watch := by
  unfold State.onPoints
  induction ps generalizing s with
  | nil => rfl
  | cons p ps ih => simp [ih]
@[simp] theorem State.onPoints_record (s : State) (ps : List Nat) (f : Point → Point) :
    (s.onPoints ps f).record = s.record := by
  unfold State.onPoints
  induction ps generalizing s with
  | nil => rfl
  | cons p ps ih => simp [ih]
@[simp] theorem State.onPoints_staging (s : State) (ps : List Nat) (f : Point → Point) :
    (s.onPoints ps f).staging = s.staging := by
  unfold State.onPoints
  induction ps generalizing s with
  | nil => rfl
  | cons p ps ih => simp [ih]
@[simp] theorem State.onPoints_causes (s : State) (ps : List Nat) (f : Point → Point) :
    (s.onPoints ps f).causes = s.causes := by
  unfold State.onPoints
  induction ps generalizing s with
  | nil => rfl
  | cons p ps ih => simp [ih]
@[simp] theorem State.onPoints_timeBase (s : State) (ps : List Nat) (f : Point → Point) :
    (s.onPoints ps f).timeBase = s.timeBase := by
  unfold State.onPoints
  induction ps generalizing s with
  | nil => rfl
  | cons p ps ih => simp [ih]
@[simp] theorem State.onPoints_pending (s : State) (ps : List Nat) (f : Point → Point) :
    (s.onPoints ps f).pending = s.pending := by
  unfold State.onPoints
  induction ps generalizing s with
  | nil => rfl
  | cons p ps ih => simp [ih]

/-! ### startMove -/

@[simp] theorem State.startMove_lanes (s : State) (k : Nat) (o : Option Nat) (i : Nat) (ps : List Nat) (v : Int) (t : Nat) (cu : Curve) (cl : Bool) :
    (s.startMove k o i ps v t cu cl).lanes = s.lanes := by cases o <;> simp [State.startMove]
@[simp] theorem State.startMove_inputMap (s : State) (k : Nat) (o : Option Nat) (i : Nat) (ps : List Nat) (v : Int) (t : Nat) (cu : Curve) (cl : Bool) :
    (s.startMove k o i ps v t cu cl).inputMap = s.inputMap := by cases o <;> simp [State.startMove]
@[simp] theorem State.startMove_masks (s : State) (k : Nat) (o : Option Nat) (i : Nat) (ps : List Nat) (v : Int) (t : Nat) (cu : Curve) (cl : Bool) :
    (s.startMove k o i ps v t cu cl).masks = s.masks := by cases o <;> simp [State.startMove]
@[simp] theorem State.startMove_audio (s : State) (k : Nat) (o : Option Nat) (i : Nat) (ps : List Nat) (v : Int) (t : Nat) (cu : Curve) (cl : Bool) :
    (s.startMove k o i ps v t cu cl).audio = s.audio := by cases o <;> simp [State.startMove]
@[simp] theorem State.startMove_store (s : State) (k : Nat) (o : Option Nat) (i : Nat) (ps : List Nat) (v : Int) (t : Nat) (cu : Curve) (cl : Bool) :
    (s.startMove k o i ps v t cu cl).store = s.store := by cases o <;> simp [State.startMove]
@[simp] theorem State.startMove_zones (s : State) (k : Nat) (o : Option Nat) (i : Nat) (ps : List Nat) (v : Int) (t : Nat) (cu : Curve) (cl : Bool) :
    (s.startMove k o i ps v t cu cl).zones = s.zones := by cases o <;> simp [State.startMove]
@[simp] theorem State.startMove_calls (s : State) (k : Nat) (o : Option Nat) (i : Nat) (ps : List Nat) (v : Int) (t : Nat) (cu : Curve) (cl : Bool) :
    (s.startMove k o i ps v t cu cl).calls = s.calls := by cases o <;> simp [State.startMove]
@[simp] theorem State.startMove_watch (s : State) (k : Nat) (o : Option Nat) (i : Nat) (ps : List Nat) (v : Int) (t : Nat) (cu : Curve) (cl : Bool) :
    (s.startMove k o i ps v t cu cl).watch = s.watch := by cases o <;> simp [State.startMove]
@[simp] theorem State.startMove_record (s : State) (k : Nat) (o : Option Nat) (i : Nat) (ps : List Nat) (v : Int) (t : Nat) (cu : Curve) (cl : Bool) :
    (s.startMove k o i ps v t cu cl).record = s.record := by cases o <;> simp [State.startMove]
@[simp] theorem State.startMove_staging (s : State) (k : Nat) (o : Option Nat) (i : Nat) (ps : List Nat) (v : Int) (t : Nat) (cu : Curve) (cl : Bool) :
    (s.startMove k o i ps v t cu cl).staging = s.staging := by cases o <;> simp [State.startMove]
@[simp] theorem State.startMove_causes (s : State) (k : Nat) (o : Option Nat) (i : Nat) (ps : List Nat) (v : Int) (t : Nat) (cu : Curve) (cl : Bool) :
    (s.startMove k o i ps v t cu cl).causes = s.causes := by cases o <;> simp [State.startMove]
@[simp] theorem State.startMove_timeBase (s : State) (k : Nat) (o : Option Nat) (i : Nat) (ps : List Nat) (v : Int) (t : Nat) (cu : Curve) (cl : Bool) :
    (s.startMove k o i ps v t cu cl).timeBase = s.timeBase := by cases o <;> simp [State.startMove]
@[simp] theorem State.startMove_pending (s : State) (k : Nat) (o : Option Nat) (i : Nat) (ps : List Nat) (v : Int) (t : Nat) (cu : Curve) (cl : Bool) :
    (s.startMove k o i ps v t cu cl).pending = s.pending := by cases o <;> simp [State.startMove]

/-! ### moveLevels -/

@[simp] theorem State.moveLevels_lanes (s : State) (o : Option Nat) (c i : Nat) (ps : List Nat) (v : Int) (t : Nat) (cu : Curve) (cl : Bool) :
    (s.moveLevels o c i ps v t cu cl).lanes = s.lanes := by
  unfold State.moveLevels; repeat' (first | split | dsimp only)
  all_goals (try simp)
@[simp] theorem State.moveLevels_inputMap (s : State) (o : Option Nat) (c i : Nat) (ps : List Nat) (v : Int) (t : Nat) (cu : Curve) (cl : Bool) :
    (s.moveLevels o c i ps v t cu cl).inputMap = s.inputMap := by
  unfold State.moveLevels; repeat' (first | split | dsimp only)
  all_goals (try simp)
@[simp] theorem State.moveLevels_masks (s : State) (o : Option Nat) (c i : Nat) (ps : List Nat) (v : Int) (t : Nat) (cu : Curve) (cl : Bool) :
    (s.moveLevels o c i ps v t cu cl).masks = s.masks := by
  unfold State.moveLevels; repeat' (first | split | dsimp only)
  all_goals (try simp)
@[simp] theorem State.moveLevels_audio (s : State) (o : Option Nat) (c i : Nat) (ps : List Nat) (v : Int) (t : Nat) (cu : Curve) (cl : Bool) :
    (s.moveLevels o c i ps v t cu cl).audio = s.audio := by
  unfold State.moveLevels; repeat' (first | split | dsimp only)
  all_goals (try simp)
@[simp] theorem State.moveLevels_store (s : State) (o : Option Nat) (c i : Nat) (ps : List Nat) (v : Int) (t : Nat) (cu : Curve) (cl : Bool) :
    (s.moveLevels o c i ps v t cu cl).store = s.store := by
  unfold State.moveLevels; repeat' (first | split | dsimp only)
  all_goals (try simp)
@[simp] theorem State.moveLevels_zones (s : State) (o : Option Nat) (c i : Nat) (ps : List Nat) (v : Int) (t : Nat) (cu : Curve) (cl : Bool) :
    (s.moveLevels o c i ps v t cu cl).zones = s.zones := by
  unfold State.moveLevels; repeat' (first | split | dsimp only)
  all_goals (try simp)
@[simp] theorem State.moveLevels_calls (s : State) (o : Option Nat) (c i : Nat) (ps : List Nat) (v : Int) (t : Nat) (cu : Curve) (cl : Bool) :
    (s.moveLevels o c i ps v t cu cl).calls = s.calls := by
  unfold State.moveLevels; repeat' (first | split | dsimp only)
  all_goals (try simp)
@[simp] theorem State.moveLevels_watch (s : State) (o : Option Nat) (c i : Nat) (ps : List Nat) (v : Int) (t : Nat) (cu : Curve) (cl : Bool) :
    (s.moveLevels o c i ps v t cu cl).watch = s.watch := by
  unfold State.moveLevels; repeat' (first | split | dsimp only)
  all_goals (try simp)
@[simp] theorem State.moveLevels_staging (s : State) (o : Option Nat) (c i : Nat) (ps : List Nat) (v : Int) (t : Nat) (cu : Curve) (cl : Bool) :
    (s.moveLevels o c i ps v t cu cl).staging = s.staging := by
  unfold State.moveLevels; repeat' (first | split | dsimp only)
  all_goals (try simp)
@[simp] theorem State.moveLevels_causes (s : State) (o : Option Nat) (c i : Nat) (ps : List Nat) (v : Int) (t : Nat) (cu : Curve) (cl : Bool) :
    (s.moveLevels o c i ps v t cu cl).causes = s.causes := by
  unfold State.moveLevels; repeat' (first | split | dsimp only)
  all_goals (try simp)
@[simp] theorem State.moveLevels_timeBase (s : State) (o : Option Nat) (c i : Nat) (ps : List Nat) (v : Int) (t : Nat) (cu : Curve) (cl : Bool) :
    (s.moveLevels o c i ps v t cu cl).timeBase = s.timeBase := by
  unfold State.moveLevels; repeat' (first | split | dsimp only)
  all_goals (try simp)
@[simp] theorem State.moveLevels_pending (s : State) (o : Option Nat) (c i : Nat) (ps : List Nat) (v : Int) (t : Nat) (cu : Curve) (cl : Bool) :
    (s.moveLevels o c i ps v t cu cl).pending = s.pending := by
  unfold State.moveLevels; repeat' (first | split | dsimp only)
  all_goals (try simp)

/-! ### levelAction -/

@[simp] theorem State.levelAction_inputMap (s : State) (o : Option Nat) (c i : Nat) (g : ActTarget) (v : Int) (t : Nat) (cu : Curve) (cl : Bool) :
    (s.levelAction o c i g v t cu cl).inputMap = s.inputMap := by
  unfold State.levelAction; repeat' (first | split | dsimp only)
  all_goals (try simp)
@[simp] theorem State.levelAction_masks (s : State) (o : Option Nat) (c i : Nat) (g : ActTarget) (v : Int) (t : Nat) (cu : Curve) (cl : Bool) :
    (s.levelAction o c i g v t cu cl).masks = s.masks := by
  unfold State.levelAction; repeat' (first | split | dsimp only)
  all_goals (try simp)
@[simp] theorem State.levelAction_audio (s : State) (o : Option Nat) (c i : Nat) (g : ActTarget) (v : Int) (t : Nat) (cu : Curve) (cl : Bool) :
    (s.levelAction o c i g v t cu cl).audio = s.audio := by
  unfold State.levelAction; repeat' (first | split | dsimp only)
  all_goals (try simp)
@[simp] theorem State.levelAction_store (s : State) (o : Option Nat) (c i : Nat) (g : ActTarget) (v : Int) (t : Nat) (cu : Curve) (cl : Bool) :
    (s.levelAction o c i g v t cu cl).store = s.store := by
  unfold State.levelAction; repeat' (first | split | dsimp only)
  all_goals (try simp)
@[simp] theorem State.levelAction_zones (s : State) (o : Option Nat) (c i : Nat) (g : ActTarget) (v : Int) (t : Nat) (cu : Curve) (cl : Bool) :
    (s.levelAction o c i g v t cu cl).zones = s.zones := by
  unfold State.levelAction; repeat' (first | split | dsimp only)
  all_goals (try simp)
@[simp] theorem State.levelAction_calls (s : State) (o : Option Nat) (c i : Nat) (g : ActTarget) (v : Int) (t : Nat) (cu : Curve) (cl : Bool) :
    (s.levelAction o c i g v t cu cl).calls = s.calls := by
  unfold State.levelAction; repeat' (first | split | dsimp only)
  all_goals (try simp)
@[simp] theorem State.levelAction_watch (s : State) (o : Option Nat) (c i : Nat) (g : ActTarget) (v : Int) (t : Nat) (cu : Curve) (cl : Bool) :
    (s.levelAction o c i g v t cu cl).watch = s.watch := by
  unfold State.levelAction; repeat' (first | split | dsimp only)
  all_goals (try simp)
@[simp] theorem State.levelAction_staging (s : State) (o : Option Nat) (c i : Nat) (g : ActTarget) (v : Int) (t : Nat) (cu : Curve) (cl : Bool) :
    (s.levelAction o c i g v t cu cl).staging = s.staging := by
  unfold State.levelAction; repeat' (first | split | dsimp only)
  all_goals (try simp)
@[simp] theorem State.levelAction_causes (s : State) (o : Option Nat) (c i : Nat) (g : ActTarget) (v : Int) (t : Nat) (cu : Curve) (cl : Bool) :
    (s.levelAction o c i g v t cu cl).causes = s.causes := by
  unfold State.levelAction; repeat' (first | split | dsimp only)
  all_goals (try simp)
@[simp] theorem State.levelAction_timeBase (s : State) (o : Option Nat) (c i : Nat) (g : ActTarget) (v : Int) (t : Nat) (cu : Curve) (cl : Bool) :
    (s.levelAction o c i g v t cu cl).timeBase = s.timeBase := by
  unfold State.levelAction; repeat' (first | split | dsimp only)
  all_goals (try simp)
@[simp] theorem State.levelAction_pending (s : State) (o : Option Nat) (c i : Nat) (g : ActTarget) (v : Int) (t : Nat) (cu : Curve) (cl : Bool) :
    (s.levelAction o c i g v t cu cl).pending = s.pending := by
  unfold State.levelAction; repeat' (first | split | dsimp only)
  all_goals (try simp)

/-! ### haltAction -/

@[simp] theorem State.haltAction_inputMap (s : State) (g : ActTarget) :
    (s.haltAction g).inputMap = s.inputMap := by simp [State.haltAction]
@[simp] theorem State.haltAction_masks (s : State) (g : ActTarget) :
    (s.haltAction g).masks = s.masks := by simp [State.haltAction]
@[simp] theorem State.haltAction_audio (s : State) (g : ActTarget) :
    (s.haltAction g).audio = s.audio := by simp [State.haltAction]
@[simp] theorem State.haltAction_store (s : State) (g : ActTarget) :
    (s.haltAction g).store = s.store := by simp [State.haltAction]
@[simp] theorem State.haltAction_zones (s : State) (g : ActTarget) :
    (s.haltAction g).zones = s.zones := by simp [State.haltAction]
@[simp] theorem State.haltAction_calls (s : State) (g : ActTarget) :
    (s.haltAction g).calls = s.calls := by simp [State.haltAction]
@[simp] theorem State.haltAction_watch (s : State) (g : ActTarget) :
    (s.haltAction g).watch = s.watch := by simp [State.haltAction]
@[simp] theorem State.haltAction_record (s : State) (g : ActTarget) :
    (s.haltAction g).record = s.record := by simp [State.haltAction]
@[simp] theorem State.haltAction_staging (s : State) (g : ActTarget) :
    (s.haltAction g).staging = s.staging := by simp [State.haltAction]
@[simp] theorem State.haltAction_causes (s : State) (g : ActTarget) :
    (s.haltAction g).causes = s.causes := by simp [State.haltAction]
@[simp] theorem State.haltAction_timeBase (s : State) (g : ActTarget) :
    (s.haltAction g).timeBase = s.timeBase := by simp [State.haltAction]
@[simp] theorem State.haltAction_pending (s : State) (g : ActTarget) :
    (s.haltAction g).pending = s.pending := by simp [State.haltAction]

/-! ### handAction -/

@[simp] theorem State.handAction_inputMap (s : State) (o : Option Nat) (c i : Nat) (x : Action) :
    (s.handAction o c i x).inputMap = s.inputMap := by cases x <;> simp [State.handAction]
@[simp] theorem State.handAction_audio (s : State) (o : Option Nat) (c i : Nat) (x : Action) :
    (s.handAction o c i x).audio = s.audio := by cases x <;> simp [State.handAction]
@[simp] theorem State.handAction_store (s : State) (o : Option Nat) (c i : Nat) (x : Action) :
    (s.handAction o c i x).store = s.store := by cases x <;> simp [State.handAction]
@[simp] theorem State.handAction_calls (s : State) (o : Option Nat) (c i : Nat) (x : Action) :
    (s.handAction o c i x).calls = s.calls := by cases x <;> simp [State.handAction]
@[simp] theorem State.handAction_watch (s : State) (o : Option Nat) (c i : Nat) (x : Action) :
    (s.handAction o c i x).watch = s.watch := by cases x <;> simp [State.handAction]
@[simp] theorem State.handAction_staging (s : State) (o : Option Nat) (c i : Nat) (x : Action) :
    (s.handAction o c i x).staging = s.staging := by cases x <;> simp [State.handAction]
@[simp] theorem State.handAction_causes (s : State) (o : Option Nat) (c i : Nat) (x : Action) :
    (s.handAction o c i x).causes = s.causes := by cases x <;> simp [State.handAction]
@[simp] theorem State.handAction_timeBase (s : State) (o : Option Nat) (c i : Nat) (x : Action) :
    (s.handAction o c i x).timeBase = s.timeBase := by cases x <;> simp [State.handAction]
@[simp] theorem State.handAction_pending (s : State) (o : Option Nat) (c i : Nat) (x : Action) :
    (s.handAction o c i x).pending = s.pending := by cases x <;> simp [State.handAction]

/-! ### handActions -/

@[simp] theorem handActions_inputMap (o : Option Nat) (c k : Nat) (xs : List Action) (s : State) :
    (handActions o c k xs s).inputMap = s.inputMap := by
  induction xs generalizing k s with
  | nil => rfl
  | cons x xs ih => simp [handActions, ih]
@[simp] theorem handActions_audio (o : Option Nat) (c k : Nat) (xs : List Action) (s : State) :
    (handActions o c k xs s).audio = s.audio := by
  induction xs generalizing k s with
  | nil => rfl
  | cons x xs ih => simp [handActions, ih]
@[simp] theorem handActions_store (o : Option Nat) (c k : Nat) (xs : List Action) (s : State) :
    (handActions o c k xs s).store = s.store := by
  induction xs generalizing k s with
  | nil => rfl
  | cons x xs ih => simp [handActions, ih]
@[simp] theorem handActions_calls (o : Option Nat) (c k : Nat) (xs : List Action) (s : State) :
    (handActions o c k xs s).calls = s.calls := by
  induction xs generalizing k s with
  | nil => rfl
  | cons x xs ih => simp [handActions, ih]
@[simp] theorem handActions_watch (o : Option Nat) (c k : Nat) (xs : List Action) (s : State) :
    (handActions o c k xs s).watch = s.watch := by
  induction xs generalizing k s with
  | nil => rfl
  | cons x xs ih => simp [handActions, ih]
@[simp] theorem handActions_staging (o : Option Nat) (c k : Nat) (xs : List Action) (s : State) :
    (handActions o c k xs s).staging = s.staging := by
  induction xs generalizing k s with
  | nil => rfl
  | cons x xs ih => simp [handActions, ih]
@[simp] theorem handActions_causes (o : Option Nat) (c k : Nat) (xs : List Action) (s : State) :
    (handActions o c k xs s).causes = s.causes := by
  induction xs generalizing k s with
  | nil => rfl
  | cons x xs ih => simp [handActions, ih]
@[simp] theorem handActions_timeBase (o : Option Nat) (c k : Nat) (xs : List Action) (s : State) :
    (handActions o c k xs s).timeBase = s.timeBase := by
  induction xs generalizing k s with
  | nil => rfl
  | cons x xs ih => simp [handActions, ih]
@[simp] theorem handActions_pending (o : Option Nat) (c k : Nat) (xs : List Action) (s : State) :
    (handActions o c k xs s).pending = s.pending := by
  induction xs generalizing k s with
  | nil => rfl
  | cons x xs ih => simp [handActions, ih]

/-! ### completeMembers -/

@[simp] theorem State.completeMembers_lanes (s : State) (f : FadeSlot) :
    (s.completeMembers f).lanes = s.lanes := by simp [State.completeMembers]
@[simp] theorem State.completeMembers_inputMap (s : State) (f : FadeSlot) :
    (s.completeMembers f).inputMap = s.inputMap := by simp [State.completeMembers]
@[simp] theorem State.completeMembers_masks (s : State) (f : FadeSlot) :
    (s.completeMembers f).masks = s.masks := by simp [State.completeMembers]
@[simp] theorem State.completeMembers_audio (s : State) (f : FadeSlot) :
    (s.completeMembers f).audio = s.audio := by simp [State.completeMembers]
@[simp] theorem State.completeMembers_slots (s : State) (f : FadeSlot) :
    (s.completeMembers f).slots = s.slots := by simp [State.completeMembers]
@[simp] theorem State.completeMembers_store (s : State) (f : FadeSlot) :
    (s.completeMembers f).store = s.store := by simp [State.completeMembers]
@[simp] theorem State.completeMembers_runner (s : State) (f : FadeSlot) :
    (s.completeMembers f).runner = s.runner := by simp [State.completeMembers]
@[simp] theorem State.completeMembers_zones (s : State) (f : FadeSlot) :
    (s.completeMembers f).zones = s.zones := by simp [State.completeMembers]
@[simp] theorem State.completeMembers_calls (s : State) (f : FadeSlot) :
    (s.completeMembers f).calls = s.calls := by simp [State.completeMembers]
@[simp] theorem State.completeMembers_watch (s : State) (f : FadeSlot) :
    (s.completeMembers f).watch = s.watch := by simp [State.completeMembers]
@[simp] theorem State.completeMembers_record (s : State) (f : FadeSlot) :
    (s.completeMembers f).record = s.record := by simp [State.completeMembers]
@[simp] theorem State.completeMembers_staging (s : State) (f : FadeSlot) :
    (s.completeMembers f).staging = s.staging := by simp [State.completeMembers]
@[simp] theorem State.completeMembers_causes (s : State) (f : FadeSlot) :
    (s.completeMembers f).causes = s.causes := by simp [State.completeMembers]
@[simp] theorem State.completeMembers_timeBase (s : State) (f : FadeSlot) :
    (s.completeMembers f).timeBase = s.timeBase := by simp [State.completeMembers]
@[simp] theorem State.completeMembers_pending (s : State) (f : FadeSlot) :
    (s.completeMembers f).pending = s.pending := by simp [State.completeMembers]

/-! ### completeSlot -/

@[simp] theorem State.completeSlot_inputMap (s : State) (k : Nat) :
    (s.completeSlot k).inputMap = s.inputMap := by
  unfold State.completeSlot; split
  all_goals (try simp)
@[simp] theorem State.completeSlot_masks (s : State) (k : Nat) :
    (s.completeSlot k).masks = s.masks := by
  unfold State.completeSlot; split
  all_goals (try simp)
@[simp] theorem State.completeSlot_audio (s : State) (k : Nat) :
    (s.completeSlot k).audio = s.audio := by
  unfold State.completeSlot; split
  all_goals (try simp)
@[simp] theorem State.completeSlot_store (s : State) (k : Nat) :
    (s.completeSlot k).store = s.store := by
  unfold State.completeSlot; split
  all_goals (try simp)
@[simp] theorem State.completeSlot_zones (s : State) (k : Nat) :
    (s.completeSlot k).zones = s.zones := by
  unfold State.completeSlot; split
  all_goals (try simp)
@[simp] theorem State.completeSlot_calls (s : State) (k : Nat) :
    (s.completeSlot k).calls = s.calls := by
  unfold State.completeSlot; split
  all_goals (try simp)
@[simp] theorem State.completeSlot_watch (s : State) (k : Nat) :
    (s.completeSlot k).watch = s.watch := by
  unfold State.completeSlot; split
  all_goals (try simp)
@[simp] theorem State.completeSlot_record (s : State) (k : Nat) :
    (s.completeSlot k).record = s.record := by
  unfold State.completeSlot; split
  all_goals (try simp)
@[simp] theorem State.completeSlot_staging (s : State) (k : Nat) :
    (s.completeSlot k).staging = s.staging := by
  unfold State.completeSlot; split
  all_goals (try simp)
@[simp] theorem State.completeSlot_causes (s : State) (k : Nat) :
    (s.completeSlot k).causes = s.causes := by
  unfold State.completeSlot; split
  all_goals (try simp)
@[simp] theorem State.completeSlot_timeBase (s : State) (k : Nat) :
    (s.completeSlot k).timeBase = s.timeBase := by
  unfold State.completeSlot; split
  all_goals (try simp)
@[simp] theorem State.completeSlot_pending (s : State) (k : Nat) :
    (s.completeSlot k).pending = s.pending := by
  unfold State.completeSlot; split
  all_goals (try simp)

/-! ### writeFade -/

@[simp] theorem State.writeFade_lanes (s : State) (f : FadeSlot) (p : Nat) :
    (s.writeFade f p).lanes = s.lanes := by
  unfold State.writeFade
  generalize f.members = ms
  induction ms generalizing s with
  | nil => rfl
  | cons m ms ih => simp [ih]
@[simp] theorem State.writeFade_inputMap (s : State) (f : FadeSlot) (p : Nat) :
    (s.writeFade f p).inputMap = s.inputMap := by
  unfold State.writeFade
  generalize f.members = ms
  induction ms generalizing s with
  | nil => rfl
  | cons m ms ih => simp [ih]
@[simp] theorem State.writeFade_masks (s : State) (f : FadeSlot) (p : Nat) :
    (s.writeFade f p).masks = s.masks := by
  unfold State.writeFade
  generalize f.members = ms
  induction ms generalizing s with
  | nil => rfl
  | cons m ms ih => simp [ih]
@[simp] theorem State.writeFade_audio (s : State) (f : FadeSlot) (p : Nat) :
    (s.writeFade f p).audio = s.audio := by
  unfold State.writeFade
  generalize f.members = ms
  induction ms generalizing s with
  | nil => rfl
  | cons m ms ih => simp [ih]
@[simp] theorem State.writeFade_slots (s : State) (f : FadeSlot) (p : Nat) :
    (s.writeFade f p).slots = s.slots := by
  unfold State.writeFade
  generalize f.members = ms
  induction ms generalizing s with
  | nil => rfl
  | cons m ms ih => simp [ih]
@[simp] theorem State.writeFade_store (s : State) (f : FadeSlot) (p : Nat) :
    (s.writeFade f p).store = s.store := by
  unfold State.writeFade
  generalize f.members = ms
  induction ms generalizing s with
  | nil => rfl
  | cons m ms ih => simp [ih]
@[simp] theorem State.writeFade_runner (s : State) (f : FadeSlot) (p : Nat) :
    (s.writeFade f p).runner = s.runner := by
  unfold State.writeFade
  generalize f.members = ms
  induction ms generalizing s with
  | nil => rfl
  | cons m ms ih => simp [ih]
@[simp] theorem State.writeFade_zones (s : State) (f : FadeSlot) (p : Nat) :
    (s.writeFade f p).zones = s.zones := by
  unfold State.writeFade
  generalize f.members = ms
  induction ms generalizing s with
  | nil => rfl
  | cons m ms ih => simp [ih]
@[simp] theorem State.writeFade_calls (s : State) (f : FadeSlot) (p : Nat) :
    (s.writeFade f p).calls = s.calls := by
  unfold State.writeFade
  generalize f.members = ms
  induction ms generalizing s with
  | nil => rfl
  | cons m ms ih => simp [ih]
@[simp] theorem State.writeFade_watch (s : State) (f : FadeSlot) (p : Nat) :
    (s.writeFade f p).watch = s.watch := by
  unfold State.writeFade
  generalize f.members = ms
  induction ms generalizing s with
  | nil => rfl
  | cons m ms ih => simp [ih]
@[simp] theorem State.writeFade_record (s : State) (f : FadeSlot) (p : Nat) :
    (s.writeFade f p).record = s.record := by
  unfold State.writeFade
  generalize f.members = ms
  induction ms generalizing s with
  | nil => rfl
  | cons m ms ih => simp [ih]
@[simp] theorem State.writeFade_staging (s : State) (f : FadeSlot) (p : Nat) :
    (s.writeFade f p).staging = s.staging := by
  unfold State.writeFade
  generalize f.members = ms
  induction ms generalizing s with
  | nil => rfl
  | cons m ms ih => simp [ih]
@[simp] theorem State.writeFade_causes (s : State) (f : FadeSlot) (p : Nat) :
    (s.writeFade f p).causes = s.causes := by
  unfold State.writeFade
  generalize f.members = ms
  induction ms generalizing s with
  | nil => rfl
  | cons m ms ih => simp [ih]
@[simp] theorem State.writeFade_timeBase (s : State) (f : FadeSlot) (p : Nat) :
    (s.writeFade f p).timeBase = s.timeBase := by
  unfold State.writeFade
  generalize f.members = ms
  induction ms generalizing s with
  | nil => rfl
  | cons m ms ih => simp [ih]
@[simp] theorem State.writeFade_pending (s : State) (f : FadeSlot) (p : Nat) :
    (s.writeFade f p).pending = s.pending := by
  unfold State.writeFade
  generalize f.members = ms
  induction ms generalizing s with
  | nil => rfl
  | cons m ms ih => simp [ih]

/-! ### advanceSlot -/

@[simp] theorem State.advanceSlot_inputMap (s : State) (k : Nat) :
    (s.advanceSlot k).inputMap = s.inputMap := by
  unfold State.advanceSlot; repeat' (first | split | dsimp only)
  all_goals (try simp)
@[simp] theorem State.advanceSlot_masks (s : State) (k : Nat) :
    (s.advanceSlot k).masks = s.masks := by
  unfold State.advanceSlot; repeat' (first | split | dsimp only)
  all_goals (try simp)
@[simp] theorem State.advanceSlot_audio (s : State) (k : Nat) :
    (s.advanceSlot k).audio = s.audio := by
  unfold State.advanceSlot; repeat' (first | split | dsimp only)
  all_goals (try simp)
@[simp] theorem State.advanceSlot_store (s : State) (k : Nat) :
    (s.advanceSlot k).store = s.store := by
  unfold State.advanceSlot; repeat' (first | split | dsimp only)
  all_goals (try simp)
@[simp] theorem State.advanceSlot_zones (s : State) (k : Nat) :
    (s.advanceSlot k).zones = s.zones := by
  unfold State.advanceSlot; repeat' (first | split | dsimp only)
  all_goals (try simp)
@[simp] theorem State.advanceSlot_calls (s : State) (k : Nat) :
    (s.advanceSlot k).calls = s.calls := by
  unfold State.advanceSlot; repeat' (first | split | dsimp only)
  all_goals (try simp)
@[simp] theorem State.advanceSlot_watch (s : State) (k : Nat) :
    (s.advanceSlot k).watch = s.watch := by
  unfold State.advanceSlot; repeat' (first | split | dsimp only)
  all_goals (try simp)
@[simp] theorem State.advanceSlot_record (s : State) (k : Nat) :
    (s.advanceSlot k).record = s.record := by
  unfold State.advanceSlot; repeat' (first | split | dsimp only)
  all_goals (try simp)
@[simp] theorem State.advanceSlot_staging (s : State) (k : Nat) :
    (s.advanceSlot k).staging = s.staging := by
  unfold State.advanceSlot; repeat' (first | split | dsimp only)
  all_goals (try simp)
@[simp] theorem State.advanceSlot_causes (s : State) (k : Nat) :
    (s.advanceSlot k).causes = s.causes := by
  unfold State.advanceSlot; repeat' (first | split | dsimp only)
  all_goals (try simp)
@[simp] theorem State.advanceSlot_timeBase (s : State) (k : Nat) :
    (s.advanceSlot k).timeBase = s.timeBase := by
  unfold State.advanceSlot; repeat' (first | split | dsimp only)
  all_goals (try simp)
@[simp] theorem State.advanceSlot_pending (s : State) (k : Nat) :
    (s.advanceSlot k).pending = s.pending := by
  unfold State.advanceSlot; repeat' (first | split | dsimp only)
  all_goals (try simp)

/-! ### advanceSlots -/

@[simp] theorem State.advanceSlots_inputMap (s : State) :
    (s.advanceSlots).inputMap = s.inputMap := by
  unfold State.advanceSlots
  generalize List.range Config.slots = ks
  induction ks generalizing s with
  | nil => rfl
  | cons k ks ih => simp [ih]
@[simp] theorem State.advanceSlots_masks (s : State) :
    (s.advanceSlots).masks = s.masks := by
  unfold State.advanceSlots
  generalize List.range Config.slots = ks
  induction ks generalizing s with
  | nil => rfl
  | cons k ks ih => simp [ih]
@[simp] theorem State.advanceSlots_audio (s : State) :
    (s.advanceSlots).audio = s.audio := by
  unfold State.advanceSlots
  generalize List.range Config.slots = ks
  induction ks generalizing s with
  | nil => rfl
  | cons k ks ih => simp [ih]
@[simp] theorem State.advanceSlots_store (s : State) :
    (s.advanceSlots).store = s.store := by
  unfold State.advanceSlots
  generalize List.range Config.slots = ks
  induction ks generalizing s with
  | nil => rfl
  | cons k ks ih => simp [ih]
@[simp] theorem State.advanceSlots_zones (s : State) :
    (s.advanceSlots).zones = s.zones := by
  unfold State.advanceSlots
  generalize List.range Config.slots = ks
  induction ks generalizing s with
  | nil => rfl
  | cons k ks ih => simp [ih]
@[simp] theorem State.advanceSlots_calls (s : State) :
    (s.advanceSlots).calls = s.calls := by
  unfold State.advanceSlots
  generalize List.range Config.slots = ks
  induction ks generalizing s with
  | nil => rfl
  | cons k ks ih => simp [ih]
@[simp] theorem State.advanceSlots_watch (s : State) :
    (s.advanceSlots).watch = s.watch := by
  unfold State.advanceSlots
  generalize List.range Config.slots = ks
  induction ks generalizing s with
  | nil => rfl
  | cons k ks ih => simp [ih]
@[simp] theorem State.advanceSlots_record (s : State) :
    (s.advanceSlots).record = s.record := by
  unfold State.advanceSlots
  generalize List.range Config.slots = ks
  induction ks generalizing s with
  | nil => rfl
  | cons k ks ih => simp [ih]
@[simp] theorem State.advanceSlots_staging (s : State) :
    (s.advanceSlots).staging = s.staging := by
  unfold State.advanceSlots
  generalize List.range Config.slots = ks
  induction ks generalizing s with
  | nil => rfl
  | cons k ks ih => simp [ih]
@[simp] theorem State.advanceSlots_causes (s : State) :
    (s.advanceSlots).causes = s.causes := by
  unfold State.advanceSlots
  generalize List.range Config.slots = ks
  induction ks generalizing s with
  | nil => rfl
  | cons k ks ih => simp [ih]
@[simp] theorem State.advanceSlots_timeBase (s : State) :
    (s.advanceSlots).timeBase = s.timeBase := by
  unfold State.advanceSlots
  generalize List.range Config.slots = ks
  induction ks generalizing s with
  | nil => rfl
  | cons k ks ih => simp [ih]
@[simp] theorem State.advanceSlots_pending (s : State) :
    (s.advanceSlots).pending = s.pending := by
  unfold State.advanceSlots
  generalize List.range Config.slots = ks
  induction ks generalizing s with
  | nil => rfl
  | cons k ks ih => simp [ih]

/-! ### dispatch -/

@[simp] theorem State.dispatch_inputMap (s : State) (c : Nat) :
    (s.dispatch c).inputMap = s.inputMap := by simp [State.dispatch]
@[simp] theorem State.dispatch_audio (s : State) (c : Nat) :
    (s.dispatch c).audio = s.audio := by simp [State.dispatch]
@[simp] theorem State.dispatch_store (s : State) (c : Nat) :
    (s.dispatch c).store = s.store := by simp [State.dispatch]
@[simp] theorem State.dispatch_calls (s : State) (c : Nat) :
    (s.dispatch c).calls = s.calls := by simp [State.dispatch]
@[simp] theorem State.dispatch_watch (s : State) (c : Nat) :
    (s.dispatch c).watch = s.watch := by simp [State.dispatch]
@[simp] theorem State.dispatch_staging (s : State) (c : Nat) :
    (s.dispatch c).staging = s.staging := by simp [State.dispatch]
@[simp] theorem State.dispatch_causes (s : State) (c : Nat) :
    (s.dispatch c).causes = s.causes := by simp [State.dispatch]
@[simp] theorem State.dispatch_timeBase (s : State) (c : Nat) :
    (s.dispatch c).timeBase = s.timeBase := by simp [State.dispatch]
@[simp] theorem State.dispatch_pending (s : State) (c : Nat) :
    (s.dispatch c).pending = s.pending := by simp [State.dispatch]

/-! ### retire -/

@[simp] theorem State.retire_inputMap (s : State) (c : Nat) (x : RetireCause) (o : Origin) :
    (s.retire c x o).inputMap = s.inputMap := by
  unfold State.retire; split
  all_goals (try dsimp only); repeat' (first | split | dsimp only)
  all_goals (try simp)
@[simp] theorem State.retire_audio (s : State) (c : Nat) (x : RetireCause) (o : Origin) :
    (s.retire c x o).audio = s.audio := by
  unfold State.retire; split
  all_goals (try dsimp only); repeat' (first | split | dsimp only)
  all_goals (try simp)
@[simp] theorem State.retire_store (s : State) (c : Nat) (x : RetireCause) (o : Origin) :
    (s.retire c x o).store = s.store := by
  unfold State.retire; split
  all_goals (try dsimp only); repeat' (first | split | dsimp only)
  all_goals (try simp)
@[simp] theorem State.retire_calls (s : State) (c : Nat) (x : RetireCause) (o : Origin) :
    (s.retire c x o).calls = s.calls := by
  unfold State.retire; split
  all_goals (try dsimp only); repeat' (first | split | dsimp only)
  all_goals (try simp)
@[simp] theorem State.retire_watch (s : State) (c : Nat) (x : RetireCause) (o : Origin) :
    (s.retire c x o).watch = s.watch := by
  unfold State.retire; split
  all_goals (try dsimp only); repeat' (first | split | dsimp only)
  all_goals (try simp)
@[simp] theorem State.retire_staging (s : State) (c : Nat) (x : RetireCause) (o : Origin) :
    (s.retire c x o).staging = s.staging := by
  unfold State.retire; split
  all_goals (try dsimp only); repeat' (first | split | dsimp only)
  all_goals (try simp)
@[simp] theorem State.retire_causes (s : State) (c : Nat) (x : RetireCause) (o : Origin) :
    (s.retire c x o).causes = s.causes := by
  unfold State.retire; split
  all_goals (try dsimp only); repeat' (first | split | dsimp only)
  all_goals (try simp)
@[simp] theorem State.retire_timeBase (s : State) (c : Nat) (x : RetireCause) (o : Origin) :
    (s.retire c x o).timeBase = s.timeBase := by
  unfold State.retire; split
  all_goals (try dsimp only); repeat' (first | split | dsimp only)
  all_goals (try simp)
@[simp] theorem State.retire_pending (s : State) (c : Nat) (x : RetireCause) (o : Origin) :
    (s.retire c x o).pending = s.pending := by
  unfold State.retire; split
  all_goals (try dsimp only); repeat' (first | split | dsimp only)
  all_goals (try simp)

/-! ### makeRoom -/

@[simp] theorem State.makeRoom_inputMap (s : State) (c : Nat) (o : Origin) :
    (s.makeRoom c o).inputMap = s.inputMap := by
  unfold State.makeRoom; repeat' (first | split | dsimp only)
  all_goals (try simp)
@[simp] theorem State.makeRoom_audio (s : State) (c : Nat) (o : Origin) :
    (s.makeRoom c o).audio = s.audio := by
  unfold State.makeRoom; repeat' (first | split | dsimp only)
  all_goals (try simp)
@[simp] theorem State.makeRoom_store (s : State) (c : Nat) (o : Origin) :
    (s.makeRoom c o).store = s.store := by
  unfold State.makeRoom; repeat' (first | split | dsimp only)
  all_goals (try simp)
@[simp] theorem State.makeRoom_calls (s : State) (c : Nat) (o : Origin) :
    (s.makeRoom c o).calls = s.calls := by
  unfold State.makeRoom; repeat' (first | split | dsimp only)
  all_goals (try simp)
@[simp] theorem State.makeRoom_watch (s : State) (c : Nat) (o : Origin) :
    (s.makeRoom c o).watch = s.watch := by
  unfold State.makeRoom; repeat' (first | split | dsimp only)
  all_goals (try simp)
@[simp] theorem State.makeRoom_staging (s : State) (c : Nat) (o : Origin) :
    (s.makeRoom c o).staging = s.staging := by
  unfold State.makeRoom; repeat' (first | split | dsimp only)
  all_goals (try simp)
@[simp] theorem State.makeRoom_causes (s : State) (c : Nat) (o : Origin) :
    (s.makeRoom c o).causes = s.causes := by
  unfold State.makeRoom; repeat' (first | split | dsimp only)
  all_goals (try simp)
@[simp] theorem State.makeRoom_timeBase (s : State) (c : Nat) (o : Origin) :
    (s.makeRoom c o).timeBase = s.timeBase := by
  unfold State.makeRoom; repeat' (first | split | dsimp only)
  all_goals (try simp)
@[simp] theorem State.makeRoom_pending (s : State) (c : Nat) (o : Origin) :
    (s.makeRoom c o).pending = s.pending := by
  unfold State.makeRoom; repeat' (first | split | dsimp only)
  all_goals (try simp)

/-! ### startByCurtain -/

@[simp] theorem State.startByCurtain_points (s : State) (rec : Cue) (o : Origin) :
    (s.startByCurtain rec o).points = s.points := by
  unfold State.startByCurtain; split
  all_goals (try simp)
@[simp] theorem State.startByCurtain_inputMap (s : State) (rec : Cue) (o : Origin) :
    (s.startByCurtain rec o).inputMap = s.inputMap := by
  unfold State.startByCurtain; split
  all_goals (try simp)
@[simp] theorem State.startByCurtain_masks (s : State) (rec : Cue) (o : Origin) :
    (s.startByCurtain rec o).masks = s.masks := by
  unfold State.startByCurtain; split
  all_goals (try simp)
@[simp] theorem State.startByCurtain_audio (s : State) (rec : Cue) (o : Origin) :
    (s.startByCurtain rec o).audio = s.audio := by
  unfold State.startByCurtain; split
  all_goals (try simp)
@[simp] theorem State.startByCurtain_slots (s : State) (rec : Cue) (o : Origin) :
    (s.startByCurtain rec o).slots = s.slots := by
  unfold State.startByCurtain; split
  all_goals (try simp)
@[simp] theorem State.startByCurtain_store (s : State) (rec : Cue) (o : Origin) :
    (s.startByCurtain rec o).store = s.store := by
  unfold State.startByCurtain; split
  all_goals (try simp)
@[simp] theorem State.startByCurtain_runner (s : State) (rec : Cue) (o : Origin) :
    (s.startByCurtain rec o).runner = s.runner := by
  unfold State.startByCurtain; split
  all_goals (try simp)
@[simp] theorem State.startByCurtain_zones (s : State) (rec : Cue) (o : Origin) :
    (s.startByCurtain rec o).zones = s.zones := by
  unfold State.startByCurtain; split
  all_goals (try simp)
@[simp] theorem State.startByCurtain_calls (s : State) (rec : Cue) (o : Origin) :
    (s.startByCurtain rec o).calls = s.calls := by
  unfold State.startByCurtain; split
  all_goals (try simp)
@[simp] theorem State.startByCurtain_watch (s : State) (rec : Cue) (o : Origin) :
    (s.startByCurtain rec o).watch = s.watch := by
  unfold State.startByCurtain; split
  all_goals (try simp)
@[simp] theorem State.startByCurtain_staging (s : State) (rec : Cue) (o : Origin) :
    (s.startByCurtain rec o).staging = s.staging := by
  unfold State.startByCurtain; split
  all_goals (try simp)
@[simp] theorem State.startByCurtain_causes (s : State) (rec : Cue) (o : Origin) :
    (s.startByCurtain rec o).causes = s.causes := by
  unfold State.startByCurtain; split
  all_goals (try simp)
@[simp] theorem State.startByCurtain_timeBase (s : State) (rec : Cue) (o : Origin) :
    (s.startByCurtain rec o).timeBase = s.timeBase := by
  unfold State.startByCurtain; split
  all_goals (try simp)
@[simp] theorem State.startByCurtain_pending (s : State) (rec : Cue) (o : Origin) :
    (s.startByCurtain rec o).pending = s.pending := by
  unfold State.startByCurtain; split
  all_goals (try simp)

/-! ### takeGo -/

@[simp] theorem State.takeGo_inputMap (s : State) (rec : Cue) (o : Origin) :
    (s.takeGo rec o).inputMap = s.inputMap := by
  unfold State.takeGo; repeat' (first | split | dsimp only)
  all_goals (try simp)
@[simp] theorem State.takeGo_audio (s : State) (rec : Cue) (o : Origin) :
    (s.takeGo rec o).audio = s.audio := by
  unfold State.takeGo; repeat' (first | split | dsimp only)
  all_goals (try simp)
@[simp] theorem State.takeGo_store (s : State) (rec : Cue) (o : Origin) :
    (s.takeGo rec o).store = s.store := by
  unfold State.takeGo; repeat' (first | split | dsimp only)
  all_goals (try simp)
@[simp] theorem State.takeGo_calls (s : State) (rec : Cue) (o : Origin) :
    (s.takeGo rec o).calls = s.calls := by
  unfold State.takeGo; repeat' (first | split | dsimp only)
  all_goals (try simp)
@[simp] theorem State.takeGo_watch (s : State) (rec : Cue) (o : Origin) :
    (s.takeGo rec o).watch = s.watch := by
  unfold State.takeGo; repeat' (first | split | dsimp only)
  all_goals (try simp)
@[simp] theorem State.takeGo_staging (s : State) (rec : Cue) (o : Origin) :
    (s.takeGo rec o).staging = s.staging := by
  unfold State.takeGo; repeat' (first | split | dsimp only)
  all_goals (try simp)
@[simp] theorem State.takeGo_causes (s : State) (rec : Cue) (o : Origin) :
    (s.takeGo rec o).causes = s.causes := by
  unfold State.takeGo; repeat' (first | split | dsimp only)
  all_goals (try simp)
@[simp] theorem State.takeGo_timeBase (s : State) (rec : Cue) (o : Origin) :
    (s.takeGo rec o).timeBase = s.timeBase := by
  unfold State.takeGo; repeat' (first | split | dsimp only)
  all_goals (try simp)
@[simp] theorem State.takeGo_pending (s : State) (rec : Cue) (o : Origin) :
    (s.takeGo rec o).pending = s.pending := by
  unfold State.takeGo; repeat' (first | split | dsimp only)
  all_goals (try simp)

/-! ### expireFollow, beatRun, takeRuns -/

@[simp] theorem State.expireFollow_inputMap (s : State) (c : Nat) : (s.expireFollow c).1.inputMap = s.inputMap := by
  unfold State.expireFollow; repeat' (first | split | dsimp only)
  all_goals simp
@[simp] theorem State.beatRun_inputMap (s : State) (c : Nat) : (s.beatRun c).1.inputMap = s.inputMap := by
  unfold State.beatRun; repeat' split
  all_goals simp
theorem takeRuns_inputMap (g : Nat → State → State × Option Nat) (cs : List Nat) (s : State)
    (h : ∀ c t, (g c t).1.inputMap = t.inputMap) : (takeRuns g cs s).inputMap = s.inputMap := by
  unfold takeRuns
  suffices H : ∀ acc : State × List Nat,
      (cs.foldl (fun (acc : State × List Nat) c => if acc.2.contains c then acc
        else ((g c acc.1).1, (g c acc.1).2.toList ++ acc.2)) acc).1.inputMap = acc.1.inputMap from H (s, [])
  induction cs with
  | nil => intro acc; rfl
  | cons c cs ih =>
    intro acc
    rw [List.foldl_cons, ih]
    split
    · rfl
    · exact h _ _
@[simp] theorem State.expireFollow_audio (s : State) (c : Nat) : (s.expireFollow c).1.audio = s.audio := by
  unfold State.expireFollow; repeat' (first | split | dsimp only)
  all_goals simp
@[simp] theorem State.beatRun_audio (s : State) (c : Nat) : (s.beatRun c).1.audio = s.audio := by
  unfold State.beatRun; repeat' split
  all_goals simp
theorem takeRuns_audio (g : Nat → State → State × Option Nat) (cs : List Nat) (s : State)
    (h : ∀ c t, (g c t).1.audio = t.audio) : (takeRuns g cs s).audio = s.audio := by
  unfold takeRuns
  suffices H : ∀ acc : State × List Nat,
      (cs.foldl (fun (acc : State × List Nat) c => if acc.2.contains c then acc
        else ((g c acc.1).1, (g c acc.1).2.toList ++ acc.2)) acc).1.audio = acc.1.audio from H (s, [])
  induction cs with
  | nil => intro acc; rfl
  | cons c cs ih =>
    intro acc
    rw [List.foldl_cons, ih]
    split
    · rfl
    · exact h _ _
@[simp] theorem State.expireFollow_store (s : State) (c : Nat) : (s.expireFollow c).1.store = s.store := by
  unfold State.expireFollow; repeat' (first | split | dsimp only)
  all_goals simp
@[simp] theorem State.beatRun_store (s : State) (c : Nat) : (s.beatRun c).1.store = s.store := by
  unfold State.beatRun; repeat' split
  all_goals simp
theorem takeRuns_store (g : Nat → State → State × Option Nat) (cs : List Nat) (s : State)
    (h : ∀ c t, (g c t).1.store = t.store) : (takeRuns g cs s).store = s.store := by
  unfold takeRuns
  suffices H : ∀ acc : State × List Nat,
      (cs.foldl (fun (acc : State × List Nat) c => if acc.2.contains c then acc
        else ((g c acc.1).1, (g c acc.1).2.toList ++ acc.2)) acc).1.store = acc.1.store from H (s, [])
  induction cs with
  | nil => intro acc; rfl
  | cons c cs ih =>
    intro acc
    rw [List.foldl_cons, ih]
    split
    · rfl
    · exact h _ _
@[simp] theorem State.expireFollow_calls (s : State) (c : Nat) : (s.expireFollow c).1.calls = s.calls := by
  unfold State.expireFollow; repeat' (first | split | dsimp only)
  all_goals simp
@[simp] theorem State.beatRun_calls (s : State) (c : Nat) : (s.beatRun c).1.calls = s.calls := by
  unfold State.beatRun; repeat' split
  all_goals simp
theorem takeRuns_calls (g : Nat → State → State × Option Nat) (cs : List Nat) (s : State)
    (h : ∀ c t, (g c t).1.calls = t.calls) : (takeRuns g cs s).calls = s.calls := by
  unfold takeRuns
  suffices H : ∀ acc : State × List Nat,
      (cs.foldl (fun (acc : State × List Nat) c => if acc.2.contains c then acc
        else ((g c acc.1).1, (g c acc.1).2.toList ++ acc.2)) acc).1.calls = acc.1.calls from H (s, [])
  induction cs with
  | nil => intro acc; rfl
  | cons c cs ih =>
    intro acc
    rw [List.foldl_cons, ih]
    split
    · rfl
    · exact h _ _
@[simp] theorem State.expireFollow_watch (s : State) (c : Nat) : (s.expireFollow c).1.watch = s.watch := by
  unfold State.expireFollow; repeat' (first | split | dsimp only)
  all_goals simp
@[simp] theorem State.beatRun_watch (s : State) (c : Nat) : (s.beatRun c).1.watch = s.watch := by
  unfold State.beatRun; repeat' split
  all_goals simp
theorem takeRuns_watch (g : Nat → State → State × Option Nat) (cs : List Nat) (s : State)
    (h : ∀ c t, (g c t).1.watch = t.watch) : (takeRuns g cs s).watch = s.watch := by
  unfold takeRuns
  suffices H : ∀ acc : State × List Nat,
      (cs.foldl (fun (acc : State × List Nat) c => if acc.2.contains c then acc
        else ((g c acc.1).1, (g c acc.1).2.toList ++ acc.2)) acc).1.watch = acc.1.watch from H (s, [])
  induction cs with
  | nil => intro acc; rfl
  | cons c cs ih =>
    intro acc
    rw [List.foldl_cons, ih]
    split
    · rfl
    · exact h _ _
@[simp] theorem State.expireFollow_staging (s : State) (c : Nat) : (s.expireFollow c).1.staging = s.staging := by
  unfold State.expireFollow; repeat' (first | split | dsimp only)
  all_goals simp
@[simp] theorem State.beatRun_staging (s : State) (c : Nat) : (s.beatRun c).1.staging = s.staging := by
  unfold State.beatRun; repeat' split
  all_goals simp
theorem takeRuns_staging (g : Nat → State → State × Option Nat) (cs : List Nat) (s : State)
    (h : ∀ c t, (g c t).1.staging = t.staging) : (takeRuns g cs s).staging = s.staging := by
  unfold takeRuns
  suffices H : ∀ acc : State × List Nat,
      (cs.foldl (fun (acc : State × List Nat) c => if acc.2.contains c then acc
        else ((g c acc.1).1, (g c acc.1).2.toList ++ acc.2)) acc).1.staging = acc.1.staging from H (s, [])
  induction cs with
  | nil => intro acc; rfl
  | cons c cs ih =>
    intro acc
    rw [List.foldl_cons, ih]
    split
    · rfl
    · exact h _ _
@[simp] theorem State.expireFollow_causes (s : State) (c : Nat) : (s.expireFollow c).1.causes = s.causes := by
  unfold State.expireFollow; repeat' (first | split | dsimp only)
  all_goals simp
@[simp] theorem State.beatRun_causes (s : State) (c : Nat) : (s.beatRun c).1.causes = s.causes := by
  unfold State.beatRun; repeat' split
  all_goals simp
theorem takeRuns_causes (g : Nat → State → State × Option Nat) (cs : List Nat) (s : State)
    (h : ∀ c t, (g c t).1.causes = t.causes) : (takeRuns g cs s).causes = s.causes := by
  unfold takeRuns
  suffices H : ∀ acc : State × List Nat,
      (cs.foldl (fun (acc : State × List Nat) c => if acc.2.contains c then acc
        else ((g c acc.1).1, (g c acc.1).2.toList ++ acc.2)) acc).1.causes = acc.1.causes from H (s, [])
  induction cs with
  | nil => intro acc; rfl
  | cons c cs ih =>
    intro acc
    rw [List.foldl_cons, ih]
    split
    · rfl
    · exact h _ _
@[simp] theorem State.expireFollow_timeBase (s : State) (c : Nat) : (s.expireFollow c).1.timeBase = s.timeBase := by
  unfold State.expireFollow; repeat' (first | split | dsimp only)
  all_goals simp
@[simp] theorem State.beatRun_timeBase (s : State) (c : Nat) : (s.beatRun c).1.timeBase = s.timeBase := by
  unfold State.beatRun; repeat' split
  all_goals simp
theorem takeRuns_timeBase (g : Nat → State → State × Option Nat) (cs : List Nat) (s : State)
    (h : ∀ c t, (g c t).1.timeBase = t.timeBase) : (takeRuns g cs s).timeBase = s.timeBase := by
  unfold takeRuns
  suffices H : ∀ acc : State × List Nat,
      (cs.foldl (fun (acc : State × List Nat) c => if acc.2.contains c then acc
        else ((g c acc.1).1, (g c acc.1).2.toList ++ acc.2)) acc).1.timeBase = acc.1.timeBase from H (s, [])
  induction cs with
  | nil => intro acc; rfl
  | cons c cs ih =>
    intro acc
    rw [List.foldl_cons, ih]
    split
    · rfl
    · exact h _ _
@[simp] theorem State.expireFollow_pending (s : State) (c : Nat) : (s.expireFollow c).1.pending = s.pending := by
  unfold State.expireFollow; repeat' (first | split | dsimp only)
  all_goals simp
@[simp] theorem State.beatRun_pending (s : State) (c : Nat) : (s.beatRun c).1.pending = s.pending := by
  unfold State.beatRun; repeat' split
  all_goals simp
theorem takeRuns_pending (g : Nat → State → State × Option Nat) (cs : List Nat) (s : State)
    (h : ∀ c t, (g c t).1.pending = t.pending) : (takeRuns g cs s).pending = s.pending := by
  unfold takeRuns
  suffices H : ∀ acc : State × List Nat,
      (cs.foldl (fun (acc : State × List Nat) c => if acc.2.contains c then acc
        else ((g c acc.1).1, (g c acc.1).2.toList ++ acc.2)) acc).1.pending = acc.1.pending from H (s, [])
  induction cs with
  | nil => intro acc; rfl
  | cons c cs ih =>
    intro acc
    rw [List.foldl_cons, ih]
    split
    · rfl
    · exact h _ _

/-! ### endLive -/

@[simp] theorem State.endLive_points (s : State) (r : EndReason) (n : Option Call) :
    (s.endLive r n).points = s.points := by
  unfold State.endLive; repeat' (first | split | dsimp only)
  all_goals (try simp)
@[simp] theorem State.endLive_inputMap (s : State) (r : EndReason) (n : Option Call) :
    (s.endLive r n).inputMap = s.inputMap := by
  unfold State.endLive; repeat' (first | split | dsimp only)
  all_goals (try simp)
@[simp] theorem State.endLive_masks (s : State) (r : EndReason) (n : Option Call) :
    (s.endLive r n).masks = s.masks := by
  unfold State.endLive; repeat' (first | split | dsimp only)
  all_goals (try simp)
@[simp] theorem State.endLive_audio (s : State) (r : EndReason) (n : Option Call) :
    (s.endLive r n).audio = s.audio := by
  unfold State.endLive; repeat' (first | split | dsimp only)
  all_goals (try simp)
@[simp] theorem State.endLive_slots (s : State) (r : EndReason) (n : Option Call) :
    (s.endLive r n).slots = s.slots := by
  unfold State.endLive; repeat' (first | split | dsimp only)
  all_goals (try simp)
@[simp] theorem State.endLive_store (s : State) (r : EndReason) (n : Option Call) :
    (s.endLive r n).store = s.store := by
  unfold State.endLive; repeat' (first | split | dsimp only)
  all_goals (try simp)
@[simp] theorem State.endLive_runner (s : State) (r : EndReason) (n : Option Call) :
    (s.endLive r n).runner = s.runner := by
  unfold State.endLive; repeat' (first | split | dsimp only)
  all_goals (try simp)
@[simp] theorem State.endLive_watch (s : State) (r : EndReason) (n : Option Call) :
    (s.endLive r n).watch = s.watch := by
  unfold State.endLive; repeat' (first | split | dsimp only)
  all_goals (try simp)
@[simp] theorem State.endLive_staging (s : State) (r : EndReason) (n : Option Call) :
    (s.endLive r n).staging = s.staging := by
  unfold State.endLive; repeat' (first | split | dsimp only)
  all_goals (try simp)
@[simp] theorem State.endLive_causes (s : State) (r : EndReason) (n : Option Call) :
    (s.endLive r n).causes = s.causes := by
  unfold State.endLive; repeat' (first | split | dsimp only)
  all_goals (try simp)
@[simp] theorem State.endLive_timeBase (s : State) (r : EndReason) (n : Option Call) :
    (s.endLive r n).timeBase = s.timeBase := by
  unfold State.endLive; repeat' (first | split | dsimp only)
  all_goals (try simp)
@[simp] theorem State.endLive_pending (s : State) (r : EndReason) (n : Option Call) :
    (s.endLive r n).pending = s.pending := by
  unfold State.endLive; repeat' (first | split | dsimp only)
  all_goals (try simp)

/-! ### endAndGrant -/

@[simp] theorem State.endAndGrant_points (s : State) (r : EndReason) :
    (s.endAndGrant r).points = s.points := by
  unfold State.endAndGrant; split
  all_goals (try simp)
@[simp] theorem State.endAndGrant_inputMap (s : State) (r : EndReason) :
    (s.endAndGrant r).inputMap = s.inputMap := by
  unfold State.endAndGrant; split
  all_goals (try simp)
@[simp] theorem State.endAndGrant_masks (s : State) (r : EndReason) :
    (s.endAndGrant r).masks = s.masks := by
  unfold State.endAndGrant; split
  all_goals (try simp)
@[simp] theorem State.endAndGrant_audio (s : State) (r : EndReason) :
    (s.endAndGrant r).audio = s.audio := by
  unfold State.endAndGrant; split
  all_goals (try simp)
@[simp] theorem State.endAndGrant_slots (s : State) (r : EndReason) :
    (s.endAndGrant r).slots = s.slots := by
  unfold State.endAndGrant; split
  all_goals (try simp)
@[simp] theorem State.endAndGrant_store (s : State) (r : EndReason) :
    (s.endAndGrant r).store = s.store := by
  unfold State.endAndGrant; split
  all_goals (try simp)
@[simp] theorem State.endAndGrant_runner (s : State) (r : EndReason) :
    (s.endAndGrant r).runner = s.runner := by
  unfold State.endAndGrant; split
  all_goals (try simp)
@[simp] theorem State.endAndGrant_watch (s : State) (r : EndReason) :
    (s.endAndGrant r).watch = s.watch := by
  unfold State.endAndGrant; split
  all_goals (try simp)
@[simp] theorem State.endAndGrant_staging (s : State) (r : EndReason) :
    (s.endAndGrant r).staging = s.staging := by
  unfold State.endAndGrant; split
  all_goals (try simp)
@[simp] theorem State.endAndGrant_causes (s : State) (r : EndReason) :
    (s.endAndGrant r).causes = s.causes := by
  unfold State.endAndGrant; split
  all_goals (try simp)
@[simp] theorem State.endAndGrant_timeBase (s : State) (r : EndReason) :
    (s.endAndGrant r).timeBase = s.timeBase := by
  unfold State.endAndGrant; split
  all_goals (try simp)
@[simp] theorem State.endAndGrant_pending (s : State) (r : EndReason) :
    (s.endAndGrant r).pending = s.pending := by
  unfold State.endAndGrant; split
  all_goals (try simp)

/-! ### placeCall -/

@[simp] theorem State.placeCall_points (s : State) (c : Call) :
    (s.placeCall c).points = s.points := by
  unfold State.placeCall; repeat' (first | split | dsimp only)
  all_goals (try simp)
@[simp] theorem State.placeCall_inputMap (s : State) (c : Call) :
    (s.placeCall c).inputMap = s.inputMap := by
  unfold State.placeCall; repeat' (first | split | dsimp only)
  all_goals (try simp)
@[simp] theorem State.placeCall_masks (s : State) (c : Call) :
    (s.placeCall c).masks = s.masks := by
  unfold State.placeCall; repeat' (first | split | dsimp only)
  all_goals (try simp)
@[simp] theorem State.placeCall_audio (s : State) (c : Call) :
    (s.placeCall c).audio = s.audio := by
  unfold State.placeCall; repeat' (first | split | dsimp only)
  all_goals (try simp)
@[simp] theorem State.placeCall_slots (s : State) (c : Call) :
    (s.placeCall c).slots = s.slots := by
  unfold State.placeCall; repeat' (first | split | dsimp only)
  all_goals (try simp)
@[simp] theorem State.placeCall_store (s : State) (c : Call) :
    (s.placeCall c).store = s.store := by
  unfold State.placeCall; repeat' (first | split | dsimp only)
  all_goals (try simp)
@[simp] theorem State.placeCall_runner (s : State) (c : Call) :
    (s.placeCall c).runner = s.runner := by
  unfold State.placeCall; repeat' (first | split | dsimp only)
  all_goals (try simp)
@[simp] theorem State.placeCall_watch (s : State) (c : Call) :
    (s.placeCall c).watch = s.watch := by
  unfold State.placeCall; repeat' (first | split | dsimp only)
  all_goals (try simp)
@[simp] theorem State.placeCall_staging (s : State) (c : Call) :
    (s.placeCall c).staging = s.staging := by
  unfold State.placeCall; repeat' (first | split | dsimp only)
  all_goals (try simp)
@[simp] theorem State.placeCall_causes (s : State) (c : Call) :
    (s.placeCall c).causes = s.causes := by
  unfold State.placeCall; repeat' (first | split | dsimp only)
  all_goals (try simp)
@[simp] theorem State.placeCall_timeBase (s : State) (c : Call) :
    (s.placeCall c).timeBase = s.timeBase := by
  unfold State.placeCall; repeat' (first | split | dsimp only)
  all_goals (try simp)
@[simp] theorem State.placeCall_pending (s : State) (c : Call) :
    (s.placeCall c).pending = s.pending := by
  unfold State.placeCall; repeat' (first | split | dsimp only)
  all_goals (try simp)

/-! ### alarmEventIf -/

@[simp] theorem State.alarmEventIf_points (s : State) (b : Bool) (l : LogLane) (z : Nat) (d : Detail) :
    (s.alarmEventIf b l z d).points = s.points := by cases b <;> simp [State.alarmEventIf]
@[simp] theorem State.alarmEventIf_inputMap (s : State) (b : Bool) (l : LogLane) (z : Nat) (d : Detail) :
    (s.alarmEventIf b l z d).inputMap = s.inputMap := by cases b <;> simp [State.alarmEventIf]
@[simp] theorem State.alarmEventIf_masks (s : State) (b : Bool) (l : LogLane) (z : Nat) (d : Detail) :
    (s.alarmEventIf b l z d).masks = s.masks := by cases b <;> simp [State.alarmEventIf]
@[simp] theorem State.alarmEventIf_audio (s : State) (b : Bool) (l : LogLane) (z : Nat) (d : Detail) :
    (s.alarmEventIf b l z d).audio = s.audio := by cases b <;> simp [State.alarmEventIf]
@[simp] theorem State.alarmEventIf_slots (s : State) (b : Bool) (l : LogLane) (z : Nat) (d : Detail) :
    (s.alarmEventIf b l z d).slots = s.slots := by cases b <;> simp [State.alarmEventIf]
@[simp] theorem State.alarmEventIf_store (s : State) (b : Bool) (l : LogLane) (z : Nat) (d : Detail) :
    (s.alarmEventIf b l z d).store = s.store := by cases b <;> simp [State.alarmEventIf]
@[simp] theorem State.alarmEventIf_runner (s : State) (b : Bool) (l : LogLane) (z : Nat) (d : Detail) :
    (s.alarmEventIf b l z d).runner = s.runner := by cases b <;> simp [State.alarmEventIf]
@[simp] theorem State.alarmEventIf_zones (s : State) (b : Bool) (l : LogLane) (z : Nat) (d : Detail) :
    (s.alarmEventIf b l z d).zones = s.zones := by cases b <;> simp [State.alarmEventIf]
@[simp] theorem State.alarmEventIf_calls (s : State) (b : Bool) (l : LogLane) (z : Nat) (d : Detail) :
    (s.alarmEventIf b l z d).calls = s.calls := by cases b <;> simp [State.alarmEventIf]
@[simp] theorem State.alarmEventIf_watch (s : State) (b : Bool) (l : LogLane) (z : Nat) (d : Detail) :
    (s.alarmEventIf b l z d).watch = s.watch := by cases b <;> simp [State.alarmEventIf]
@[simp] theorem State.alarmEventIf_staging (s : State) (b : Bool) (l : LogLane) (z : Nat) (d : Detail) :
    (s.alarmEventIf b l z d).staging = s.staging := by cases b <;> simp [State.alarmEventIf]
@[simp] theorem State.alarmEventIf_causes (s : State) (b : Bool) (l : LogLane) (z : Nat) (d : Detail) :
    (s.alarmEventIf b l z d).causes = s.causes := by cases b <;> simp [State.alarmEventIf]
@[simp] theorem State.alarmEventIf_timeBase (s : State) (b : Bool) (l : LogLane) (z : Nat) (d : Detail) :
    (s.alarmEventIf b l z d).timeBase = s.timeBase := by cases b <;> simp [State.alarmEventIf]
@[simp] theorem State.alarmEventIf_pending (s : State) (b : Bool) (l : LogLane) (z : Nat) (d : Detail) :
    (s.alarmEventIf b l z d).pending = s.pending := by cases b <;> simp [State.alarmEventIf]

/-! ### startWindowZone -/

@[simp] theorem State.startWindowZone_points (s : State) (z : Nat) :
    (s.startWindowZone z).points = s.points := by
  unfold State.startWindowZone; repeat' (first | split | dsimp only)
  all_goals (try simp)
@[simp] theorem State.startWindowZone_inputMap (s : State) (z : Nat) :
    (s.startWindowZone z).inputMap = s.inputMap := by
  unfold State.startWindowZone; repeat' (first | split | dsimp only)
  all_goals (try simp)
@[simp] theorem State.startWindowZone_masks (s : State) (z : Nat) :
    (s.startWindowZone z).masks = s.masks := by
  unfold State.startWindowZone; repeat' (first | split | dsimp only)
  all_goals (try simp)
@[simp] theorem State.startWindowZone_audio (s : State) (z : Nat) :
    (s.startWindowZone z).audio = s.audio := by
  unfold State.startWindowZone; repeat' (first | split | dsimp only)
  all_goals (try simp)
@[simp] theorem State.startWindowZone_slots (s : State) (z : Nat) :
    (s.startWindowZone z).slots = s.slots := by
  unfold State.startWindowZone; repeat' (first | split | dsimp only)
  all_goals (try simp)
@[simp] theorem State.startWindowZone_store (s : State) (z : Nat) :
    (s.startWindowZone z).store = s.store := by
  unfold State.startWindowZone; repeat' (first | split | dsimp only)
  all_goals (try simp)
@[simp] theorem State.startWindowZone_runner (s : State) (z : Nat) :
    (s.startWindowZone z).runner = s.runner := by
  unfold State.startWindowZone; repeat' (first | split | dsimp only)
  all_goals (try simp)
@[simp] theorem State.startWindowZone_zones (s : State) (z : Nat) :
    (s.startWindowZone z).zones = s.zones := by
  unfold State.startWindowZone; repeat' (first | split | dsimp only)
  all_goals (try simp)
@[simp] theorem State.startWindowZone_calls (s : State) (z : Nat) :
    (s.startWindowZone z).calls = s.calls := by
  unfold State.startWindowZone; repeat' (first | split | dsimp only)
  all_goals (try simp)
@[simp] theorem State.startWindowZone_staging (s : State) (z : Nat) :
    (s.startWindowZone z).staging = s.staging := by
  unfold State.startWindowZone; repeat' (first | split | dsimp only)
  all_goals (try simp)
@[simp] theorem State.startWindowZone_causes (s : State) (z : Nat) :
    (s.startWindowZone z).causes = s.causes := by
  unfold State.startWindowZone; repeat' (first | split | dsimp only)
  all_goals (try simp)
@[simp] theorem State.startWindowZone_timeBase (s : State) (z : Nat) :
    (s.startWindowZone z).timeBase = s.timeBase := by
  unfold State.startWindowZone; repeat' (first | split | dsimp only)
  all_goals (try simp)
@[simp] theorem State.startWindowZone_pending (s : State) (z : Nat) :
    (s.startWindowZone z).pending = s.pending := by
  unfold State.startWindowZone; repeat' (first | split | dsimp only)
  all_goals (try simp)

/-! ### startWindow -/

@[simp] theorem State.startWindow_points (s : State) :
    (s.startWindow).points = s.points := by
  unfold State.startWindow
  generalize List.range Config.zones = ks
  induction ks generalizing s with
  | nil => rfl
  | cons k ks ih => simp [ih]
@[simp] theorem State.startWindow_inputMap (s : State) :
    (s.startWindow).inputMap = s.inputMap := by
  unfold State.startWindow
  generalize List.range Config.zones = ks
  induction ks generalizing s with
  | nil => rfl
  | cons k ks ih => simp [ih]
@[simp] theorem State.startWindow_masks (s : State) :
    (s.startWindow).masks = s.masks := by
  unfold State.startWindow
  generalize List.range Config.zones = ks
  induction ks generalizing s with
  | nil => rfl
  | cons k ks ih => simp [ih]
@[simp] theorem State.startWindow_audio (s : State) :
    (s.startWindow).audio = s.audio := by
  unfold State.startWindow
  generalize List.range Config.zones = ks
  induction ks generalizing s with
  | nil => rfl
  | cons k ks ih => simp [ih]
@[simp] theorem State.startWindow_slots (s : State) :
    (s.startWindow).slots = s.slots := by
  unfold State.startWindow
  generalize List.range Config.zones = ks
  induction ks generalizing s with
  | nil => rfl
  | cons k ks ih => simp [ih]
@[simp] theorem State.startWindow_store (s : State) :
    (s.startWindow).store = s.store := by
  unfold State.startWindow
  generalize List.range Config.zones = ks
  induction ks generalizing s with
  | nil => rfl
  | cons k ks ih => simp [ih]
@[simp] theorem State.startWindow_runner (s : State) :
    (s.startWindow).runner = s.runner := by
  unfold State.startWindow
  generalize List.range Config.zones = ks
  induction ks generalizing s with
  | nil => rfl
  | cons k ks ih => simp [ih]
@[simp] theorem State.startWindow_zones (s : State) :
    (s.startWindow).zones = s.zones := by
  unfold State.startWindow
  generalize List.range Config.zones = ks
  induction ks generalizing s with
  | nil => rfl
  | cons k ks ih => simp [ih]
@[simp] theorem State.startWindow_calls (s : State) :
    (s.startWindow).calls = s.calls := by
  unfold State.startWindow
  generalize List.range Config.zones = ks
  induction ks generalizing s with
  | nil => rfl
  | cons k ks ih => simp [ih]
@[simp] theorem State.startWindow_staging (s : State) :
    (s.startWindow).staging = s.staging := by
  unfold State.startWindow
  generalize List.range Config.zones = ks
  induction ks generalizing s with
  | nil => rfl
  | cons k ks ih => simp [ih]
@[simp] theorem State.startWindow_causes (s : State) :
    (s.startWindow).causes = s.causes := by
  unfold State.startWindow
  generalize List.range Config.zones = ks
  induction ks generalizing s with
  | nil => rfl
  | cons k ks ih => simp [ih]
@[simp] theorem State.startWindow_timeBase (s : State) :
    (s.startWindow).timeBase = s.timeBase := by
  unfold State.startWindow
  generalize List.range Config.zones = ks
  induction ks generalizing s with
  | nil => rfl
  | cons k ks ih => simp [ih]
@[simp] theorem State.startWindow_pending (s : State) :
    (s.startWindow).pending = s.pending := by
  unfold State.startWindow
  generalize List.range Config.zones = ks
  induction ks generalizing s with
  | nil => rfl
  | cons k ks ih => simp [ih]

/-! ### endWindowZone -/

@[simp] theorem State.endWindowZone_points (s : State) (z : Nat) :
    (s.endWindowZone z).points = s.points := by
  unfold State.endWindowZone; repeat' (first | split | dsimp only)
  all_goals (try simp)
@[simp] theorem State.endWindowZone_inputMap (s : State) (z : Nat) :
    (s.endWindowZone z).inputMap = s.inputMap := by
  unfold State.endWindowZone; repeat' (first | split | dsimp only)
  all_goals (try simp)
@[simp] theorem State.endWindowZone_masks (s : State) (z : Nat) :
    (s.endWindowZone z).masks = s.masks := by
  unfold State.endWindowZone; repeat' (first | split | dsimp only)
  all_goals (try simp)
@[simp] theorem State.endWindowZone_audio (s : State) (z : Nat) :
    (s.endWindowZone z).audio = s.audio := by
  unfold State.endWindowZone; repeat' (first | split | dsimp only)
  all_goals (try simp)
@[simp] theorem State.endWindowZone_slots (s : State) (z : Nat) :
    (s.endWindowZone z).slots = s.slots := by
  unfold State.endWindowZone; repeat' (first | split | dsimp only)
  all_goals (try simp)
@[simp] theorem State.endWindowZone_store (s : State) (z : Nat) :
    (s.endWindowZone z).store = s.store := by
  unfold State.endWindowZone; repeat' (first | split | dsimp only)
  all_goals (try simp)
@[simp] theorem State.endWindowZone_runner (s : State) (z : Nat) :
    (s.endWindowZone z).runner = s.runner := by
  unfold State.endWindowZone; repeat' (first | split | dsimp only)
  all_goals (try simp)
@[simp] theorem State.endWindowZone_zones (s : State) (z : Nat) :
    (s.endWindowZone z).zones = s.zones := by
  unfold State.endWindowZone; repeat' (first | split | dsimp only)
  all_goals (try simp)
@[simp] theorem State.endWindowZone_calls (s : State) (z : Nat) :
    (s.endWindowZone z).calls = s.calls := by
  unfold State.endWindowZone; repeat' (first | split | dsimp only)
  all_goals (try simp)
@[simp] theorem State.endWindowZone_staging (s : State) (z : Nat) :
    (s.endWindowZone z).staging = s.staging := by
  unfold State.endWindowZone; repeat' (first | split | dsimp only)
  all_goals (try simp)
@[simp] theorem State.endWindowZone_causes (s : State) (z : Nat) :
    (s.endWindowZone z).causes = s.causes := by
  unfold State.endWindowZone; repeat' (first | split | dsimp only)
  all_goals (try simp)
@[simp] theorem State.endWindowZone_timeBase (s : State) (z : Nat) :
    (s.endWindowZone z).timeBase = s.timeBase := by
  unfold State.endWindowZone; repeat' (first | split | dsimp only)
  all_goals (try simp)
@[simp] theorem State.endWindowZone_pending (s : State) (z : Nat) :
    (s.endWindowZone z).pending = s.pending := by
  unfold State.endWindowZone; repeat' (first | split | dsimp only)
  all_goals (try simp)

/-! ### endWindow -/

@[simp] theorem State.endWindow_points (s : State) :
    (s.endWindow).points = s.points := by
  unfold State.endWindow
  generalize List.range Config.zones = ks
  suffices h : ∀ t : State, (ks.foldl (fun s z => s.endWindowZone z) t).points = t.points from h s
  induction ks with
  | nil => intro t; rfl
  | cons k ks ih => intro t; rw [List.foldl_cons, ih]; simp
@[simp] theorem State.endWindow_inputMap (s : State) :
    (s.endWindow).inputMap = s.inputMap := by
  unfold State.endWindow
  generalize List.range Config.zones = ks
  suffices h : ∀ t : State, (ks.foldl (fun s z => s.endWindowZone z) t).inputMap = t.inputMap from h s
  induction ks with
  | nil => intro t; rfl
  | cons k ks ih => intro t; rw [List.foldl_cons, ih]; simp
@[simp] theorem State.endWindow_masks (s : State) :
    (s.endWindow).masks = s.masks := by
  unfold State.endWindow
  generalize List.range Config.zones = ks
  suffices h : ∀ t : State, (ks.foldl (fun s z => s.endWindowZone z) t).masks = t.masks from h s
  induction ks with
  | nil => intro t; rfl
  | cons k ks ih => intro t; rw [List.foldl_cons, ih]; simp
@[simp] theorem State.endWindow_audio (s : State) :
    (s.endWindow).audio = s.audio := by
  unfold State.endWindow
  generalize List.range Config.zones = ks
  suffices h : ∀ t : State, (ks.foldl (fun s z => s.endWindowZone z) t).audio = t.audio from h s
  induction ks with
  | nil => intro t; rfl
  | cons k ks ih => intro t; rw [List.foldl_cons, ih]; simp
@[simp] theorem State.endWindow_slots (s : State) :
    (s.endWindow).slots = s.slots := by
  unfold State.endWindow
  generalize List.range Config.zones = ks
  suffices h : ∀ t : State, (ks.foldl (fun s z => s.endWindowZone z) t).slots = t.slots from h s
  induction ks with
  | nil => intro t; rfl
  | cons k ks ih => intro t; rw [List.foldl_cons, ih]; simp
@[simp] theorem State.endWindow_store (s : State) :
    (s.endWindow).store = s.store := by
  unfold State.endWindow
  generalize List.range Config.zones = ks
  suffices h : ∀ t : State, (ks.foldl (fun s z => s.endWindowZone z) t).store = t.store from h s
  induction ks with
  | nil => intro t; rfl
  | cons k ks ih => intro t; rw [List.foldl_cons, ih]; simp
@[simp] theorem State.endWindow_runner (s : State) :
    (s.endWindow).runner = s.runner := by
  unfold State.endWindow
  generalize List.range Config.zones = ks
  suffices h : ∀ t : State, (ks.foldl (fun s z => s.endWindowZone z) t).runner = t.runner from h s
  induction ks with
  | nil => intro t; rfl
  | cons k ks ih => intro t; rw [List.foldl_cons, ih]; simp
@[simp] theorem State.endWindow_zones (s : State) :
    (s.endWindow).zones = s.zones := by
  unfold State.endWindow
  generalize List.range Config.zones = ks
  suffices h : ∀ t : State, (ks.foldl (fun s z => s.endWindowZone z) t).zones = t.zones from h s
  induction ks with
  | nil => intro t; rfl
  | cons k ks ih => intro t; rw [List.foldl_cons, ih]; simp
@[simp] theorem State.endWindow_calls (s : State) :
    (s.endWindow).calls = s.calls := by
  unfold State.endWindow
  generalize List.range Config.zones = ks
  suffices h : ∀ t : State, (ks.foldl (fun s z => s.endWindowZone z) t).calls = t.calls from h s
  induction ks with
  | nil => intro t; rfl
  | cons k ks ih => intro t; rw [List.foldl_cons, ih]; simp
@[simp] theorem State.endWindow_staging (s : State) :
    (s.endWindow).staging = s.staging := by
  unfold State.endWindow
  generalize List.range Config.zones = ks
  suffices h : ∀ t : State, (ks.foldl (fun s z => s.endWindowZone z) t).staging = t.staging from h s
  induction ks with
  | nil => intro t; rfl
  | cons k ks ih => intro t; rw [List.foldl_cons, ih]; simp
@[simp] theorem State.endWindow_causes (s : State) :
    (s.endWindow).causes = s.causes := by
  unfold State.endWindow
  generalize List.range Config.zones = ks
  suffices h : ∀ t : State, (ks.foldl (fun s z => s.endWindowZone z) t).causes = t.causes from h s
  induction ks with
  | nil => intro t; rfl
  | cons k ks ih => intro t; rw [List.foldl_cons, ih]; simp
@[simp] theorem State.endWindow_timeBase (s : State) :
    (s.endWindow).timeBase = s.timeBase := by
  unfold State.endWindow
  generalize List.range Config.zones = ks
  suffices h : ∀ t : State, (ks.foldl (fun s z => s.endWindowZone z) t).timeBase = t.timeBase from h s
  induction ks with
  | nil => intro t; rfl
  | cons k ks ih => intro t; rw [List.foldl_cons, ih]; simp
@[simp] theorem State.endWindow_pending (s : State) :
    (s.endWindow).pending = s.pending := by
  unfold State.endWindow
  generalize List.range Config.zones = ks
  suffices h : ∀ t : State, (ks.foldl (fun s z => s.endWindowZone z) t).pending = t.pending from h s
  induction ks with
  | nil => intro t; rfl
  | cons k ks ih => intro t; rw [List.foldl_cons, ih]; simp

/-! ### endFullWindow -/

@[simp] theorem State.endFullWindow_points (s : State) :
    (s.endFullWindow).points = s.points := by
  unfold State.endFullWindow; split
  all_goals (try simp)
@[simp] theorem State.endFullWindow_inputMap (s : State) :
    (s.endFullWindow).inputMap = s.inputMap := by
  unfold State.endFullWindow; split
  all_goals (try simp)
@[simp] theorem State.endFullWindow_masks (s : State) :
    (s.endFullWindow).masks = s.masks := by
  unfold State.endFullWindow; split
  all_goals (try simp)
@[simp] theorem State.endFullWindow_audio (s : State) :
    (s.endFullWindow).audio = s.audio := by
  unfold State.endFullWindow; split
  all_goals (try simp)
@[simp] theorem State.endFullWindow_slots (s : State) :
    (s.endFullWindow).slots = s.slots := by
  unfold State.endFullWindow; split
  all_goals (try simp)
@[simp] theorem State.endFullWindow_store (s : State) :
    (s.endFullWindow).store = s.store := by
  unfold State.endFullWindow; split
  all_goals (try simp)
@[simp] theorem State.endFullWindow_runner (s : State) :
    (s.endFullWindow).runner = s.runner := by
  unfold State.endFullWindow; split
  all_goals (try simp)
@[simp] theorem State.endFullWindow_zones (s : State) :
    (s.endFullWindow).zones = s.zones := by
  unfold State.endFullWindow; split
  all_goals (try simp)
@[simp] theorem State.endFullWindow_calls (s : State) :
    (s.endFullWindow).calls = s.calls := by
  unfold State.endFullWindow; split
  all_goals (try simp)
@[simp] theorem State.endFullWindow_staging (s : State) :
    (s.endFullWindow).staging = s.staging := by
  unfold State.endFullWindow; split
  all_goals (try simp)
@[simp] theorem State.endFullWindow_causes (s : State) :
    (s.endFullWindow).causes = s.causes := by
  unfold State.endFullWindow; split
  all_goals (try simp)
@[simp] theorem State.endFullWindow_timeBase (s : State) :
    (s.endFullWindow).timeBase = s.timeBase := by
  unfold State.endFullWindow; split
  all_goals (try simp)
@[simp] theorem State.endFullWindow_pending (s : State) :
    (s.endFullWindow).pending = s.pending := by
  unfold State.endFullWindow; split
  all_goals (try simp)

/-! ### countGoodPeriod -/

@[simp] theorem State.countGoodPeriod_points (s : State) :
    (s.countGoodPeriod).points = s.points := by
  unfold State.countGoodPeriod; repeat' (first | split | dsimp only)
  all_goals (try simp)
@[simp] theorem State.countGoodPeriod_inputMap (s : State) :
    (s.countGoodPeriod).inputMap = s.inputMap := by
  unfold State.countGoodPeriod; repeat' (first | split | dsimp only)
  all_goals (try simp)
@[simp] theorem State.countGoodPeriod_masks (s : State) :
    (s.countGoodPeriod).masks = s.masks := by
  unfold State.countGoodPeriod; repeat' (first | split | dsimp only)
  all_goals (try simp)
@[simp] theorem State.countGoodPeriod_slots (s : State) :
    (s.countGoodPeriod).slots = s.slots := by
  unfold State.countGoodPeriod; repeat' (first | split | dsimp only)
  all_goals (try simp)
@[simp] theorem State.countGoodPeriod_store (s : State) :
    (s.countGoodPeriod).store = s.store := by
  unfold State.countGoodPeriod; repeat' (first | split | dsimp only)
  all_goals (try simp)
@[simp] theorem State.countGoodPeriod_runner (s : State) :
    (s.countGoodPeriod).runner = s.runner := by
  unfold State.countGoodPeriod; repeat' (first | split | dsimp only)
  all_goals (try simp)
@[simp] theorem State.countGoodPeriod_zones (s : State) :
    (s.countGoodPeriod).zones = s.zones := by
  unfold State.countGoodPeriod; repeat' (first | split | dsimp only)
  all_goals (try simp)
@[simp] theorem State.countGoodPeriod_calls (s : State) :
    (s.countGoodPeriod).calls = s.calls := by
  unfold State.countGoodPeriod; repeat' (first | split | dsimp only)
  all_goals (try simp)
@[simp] theorem State.countGoodPeriod_watch (s : State) :
    (s.countGoodPeriod).watch = s.watch := by
  unfold State.countGoodPeriod; repeat' (first | split | dsimp only)
  all_goals (try simp)
@[simp] theorem State.countGoodPeriod_staging (s : State) :
    (s.countGoodPeriod).staging = s.staging := by
  unfold State.countGoodPeriod; repeat' (first | split | dsimp only)
  all_goals (try simp)
@[simp] theorem State.countGoodPeriod_causes (s : State) :
    (s.countGoodPeriod).causes = s.causes := by
  unfold State.countGoodPeriod; repeat' (first | split | dsimp only)
  all_goals (try simp)
@[simp] theorem State.countGoodPeriod_timeBase (s : State) :
    (s.countGoodPeriod).timeBase = s.timeBase := by
  unfold State.countGoodPeriod; repeat' (first | split | dsimp only)
  all_goals (try simp)
@[simp] theorem State.countGoodPeriod_pending (s : State) :
    (s.countGoodPeriod).pending = s.pending := by
  unfold State.countGoodPeriod; repeat' (first | split | dsimp only)
  all_goals (try simp)

/-! ### audioFrame -/

@[simp] theorem State.audioFrame_points (s : State) (i0 i1 : List Int) :
    (s.audioFrame i0 i1).points = s.points := by
  unfold State.audioFrame; dsimp only; simp; split
  all_goals (try simp)
@[simp] theorem State.audioFrame_inputMap (s : State) (i0 i1 : List Int) :
    (s.audioFrame i0 i1).inputMap = s.inputMap := by
  unfold State.audioFrame; dsimp only; simp; split
  all_goals (try simp)
@[simp] theorem State.audioFrame_masks (s : State) (i0 i1 : List Int) :
    (s.audioFrame i0 i1).masks = s.masks := by
  unfold State.audioFrame; dsimp only; simp; split
  all_goals (try simp)
@[simp] theorem State.audioFrame_slots (s : State) (i0 i1 : List Int) :
    (s.audioFrame i0 i1).slots = s.slots := by
  unfold State.audioFrame; dsimp only; simp; split
  all_goals (try simp)
@[simp] theorem State.audioFrame_store (s : State) (i0 i1 : List Int) :
    (s.audioFrame i0 i1).store = s.store := by
  unfold State.audioFrame; dsimp only; simp; split
  all_goals (try simp)
@[simp] theorem State.audioFrame_runner (s : State) (i0 i1 : List Int) :
    (s.audioFrame i0 i1).runner = s.runner := by
  unfold State.audioFrame; dsimp only; simp; split
  all_goals (try simp)
@[simp] theorem State.audioFrame_zones (s : State) (i0 i1 : List Int) :
    (s.audioFrame i0 i1).zones = s.zones := by
  unfold State.audioFrame; dsimp only; simp; split
  all_goals (try simp)
@[simp] theorem State.audioFrame_calls (s : State) (i0 i1 : List Int) :
    (s.audioFrame i0 i1).calls = s.calls := by
  unfold State.audioFrame; dsimp only; simp; split
  all_goals (try simp)
@[simp] theorem State.audioFrame_staging (s : State) (i0 i1 : List Int) :
    (s.audioFrame i0 i1).staging = s.staging := by
  unfold State.audioFrame; dsimp only; simp; split
  all_goals (try simp)
@[simp] theorem State.audioFrame_causes (s : State) (i0 i1 : List Int) :
    (s.audioFrame i0 i1).causes = s.causes := by
  unfold State.audioFrame; dsimp only; simp; split
  all_goals (try simp)
@[simp] theorem State.audioFrame_timeBase (s : State) (i0 i1 : List Int) :
    (s.audioFrame i0 i1).timeBase = s.timeBase := by
  unfold State.audioFrame; dsimp only; simp; split
  all_goals (try simp)
@[simp] theorem State.audioFrame_pending (s : State) (i0 i1 : List Int) :
    (s.audioFrame i0 i1).pending = s.pending := by
  unfold State.audioFrame; dsimp only; simp; split
  all_goals (try simp)

/-! ### ackZone -/

@[simp] theorem State.ackZone_points (s : State) (l : Lane) (z : Nat) :
    (s.ackZone l z).points = s.points := by
  unfold State.ackZone; split
  all_goals (try simp)
@[simp] theorem State.ackZone_inputMap (s : State) (l : Lane) (z : Nat) :
    (s.ackZone l z).inputMap = s.inputMap := by
  unfold State.ackZone; split
  all_goals (try simp)
@[simp] theorem State.ackZone_masks (s : State) (l : Lane) (z : Nat) :
    (s.ackZone l z).masks = s.masks := by
  unfold State.ackZone; split
  all_goals (try simp)
@[simp] theorem State.ackZone_audio (s : State) (l : Lane) (z : Nat) :
    (s.ackZone l z).audio = s.audio := by
  unfold State.ackZone; split
  all_goals (try simp)
@[simp] theorem State.ackZone_slots (s : State) (l : Lane) (z : Nat) :
    (s.ackZone l z).slots = s.slots := by
  unfold State.ackZone; split
  all_goals (try simp)
@[simp] theorem State.ackZone_store (s : State) (l : Lane) (z : Nat) :
    (s.ackZone l z).store = s.store := by
  unfold State.ackZone; split
  all_goals (try simp)
@[simp] theorem State.ackZone_runner (s : State) (l : Lane) (z : Nat) :
    (s.ackZone l z).runner = s.runner := by
  unfold State.ackZone; split
  all_goals (try simp)
@[simp] theorem State.ackZone_zones (s : State) (l : Lane) (z : Nat) :
    (s.ackZone l z).zones = s.zones := by
  unfold State.ackZone; split
  all_goals (try simp)
@[simp] theorem State.ackZone_calls (s : State) (l : Lane) (z : Nat) :
    (s.ackZone l z).calls = s.calls := by
  unfold State.ackZone; split
  all_goals (try simp)
@[simp] theorem State.ackZone_staging (s : State) (l : Lane) (z : Nat) :
    (s.ackZone l z).staging = s.staging := by
  unfold State.ackZone; split
  all_goals (try simp)
@[simp] theorem State.ackZone_causes (s : State) (l : Lane) (z : Nat) :
    (s.ackZone l z).causes = s.causes := by
  unfold State.ackZone; split
  all_goals (try simp)
@[simp] theorem State.ackZone_timeBase (s : State) (l : Lane) (z : Nat) :
    (s.ackZone l z).timeBase = s.timeBase := by
  unfold State.ackZone; split
  all_goals (try simp)
@[simp] theorem State.ackZone_pending (s : State) (l : Lane) (z : Nat) :
    (s.ackZone l z).pending = s.pending := by
  unfold State.ackZone; split
  all_goals (try simp)

/-! ### tickDelay -/

@[simp] theorem State.tickDelay_points (s : State) :
    (s.tickDelay).points = s.points := by
  unfold State.tickDelay; repeat' (first | split | dsimp only)
  all_goals (try simp)
@[simp] theorem State.tickDelay_inputMap (s : State) :
    (s.tickDelay).inputMap = s.inputMap := by
  unfold State.tickDelay; repeat' (first | split | dsimp only)
  all_goals (try simp)
@[simp] theorem State.tickDelay_masks (s : State) :
    (s.tickDelay).masks = s.masks := by
  unfold State.tickDelay; repeat' (first | split | dsimp only)
  all_goals (try simp)
@[simp] theorem State.tickDelay_audio (s : State) :
    (s.tickDelay).audio = s.audio := by
  unfold State.tickDelay; repeat' (first | split | dsimp only)
  all_goals (try simp)
@[simp] theorem State.tickDelay_slots (s : State) :
    (s.tickDelay).slots = s.slots := by
  unfold State.tickDelay; repeat' (first | split | dsimp only)
  all_goals (try simp)
@[simp] theorem State.tickDelay_store (s : State) :
    (s.tickDelay).store = s.store := by
  unfold State.tickDelay; repeat' (first | split | dsimp only)
  all_goals (try simp)
@[simp] theorem State.tickDelay_runner (s : State) :
    (s.tickDelay).runner = s.runner := by
  unfold State.tickDelay; repeat' (first | split | dsimp only)
  all_goals (try simp)
@[simp] theorem State.tickDelay_zones (s : State) :
    (s.tickDelay).zones = s.zones := by
  unfold State.tickDelay; repeat' (first | split | dsimp only)
  all_goals (try simp)
@[simp] theorem State.tickDelay_calls (s : State) :
    (s.tickDelay).calls = s.calls := by
  unfold State.tickDelay; repeat' (first | split | dsimp only)
  all_goals (try simp)
@[simp] theorem State.tickDelay_watch (s : State) :
    (s.tickDelay).watch = s.watch := by
  unfold State.tickDelay; repeat' (first | split | dsimp only)
  all_goals (try simp)
@[simp] theorem State.tickDelay_staging (s : State) :
    (s.tickDelay).staging = s.staging := by
  unfold State.tickDelay; repeat' (first | split | dsimp only)
  all_goals (try simp)
@[simp] theorem State.tickDelay_causes (s : State) :
    (s.tickDelay).causes = s.causes := by
  unfold State.tickDelay; repeat' (first | split | dsimp only)
  all_goals (try simp)
@[simp] theorem State.tickDelay_timeBase (s : State) :
    (s.tickDelay).timeBase = s.timeBase := by
  unfold State.tickDelay; repeat' (first | split | dsimp only)
  all_goals (try simp)
@[simp] theorem State.tickDelay_pending (s : State) :
    (s.tickDelay).pending = s.pending := by
  unfold State.tickDelay; repeat' (first | split | dsimp only)
  all_goals (try simp)

/-! ### dispatchDue -/

@[simp] theorem State.dispatchDue_inputMap (s : State) (c : Nat) :
    (s.dispatchDue c).inputMap = s.inputMap := by
  unfold State.dispatchDue; repeat' (first | split | dsimp only)
  all_goals (try simp)
@[simp] theorem State.dispatchDue_audio (s : State) (c : Nat) :
    (s.dispatchDue c).audio = s.audio := by
  unfold State.dispatchDue; repeat' (first | split | dsimp only)
  all_goals (try simp)
@[simp] theorem State.dispatchDue_store (s : State) (c : Nat) :
    (s.dispatchDue c).store = s.store := by
  unfold State.dispatchDue; repeat' (first | split | dsimp only)
  all_goals (try simp)
@[simp] theorem State.dispatchDue_calls (s : State) (c : Nat) :
    (s.dispatchDue c).calls = s.calls := by
  unfold State.dispatchDue; repeat' (first | split | dsimp only)
  all_goals (try simp)
@[simp] theorem State.dispatchDue_watch (s : State) (c : Nat) :
    (s.dispatchDue c).watch = s.watch := by
  unfold State.dispatchDue; repeat' (first | split | dsimp only)
  all_goals (try simp)
@[simp] theorem State.dispatchDue_staging (s : State) (c : Nat) :
    (s.dispatchDue c).staging = s.staging := by
  unfold State.dispatchDue; repeat' (first | split | dsimp only)
  all_goals (try simp)
@[simp] theorem State.dispatchDue_causes (s : State) (c : Nat) :
    (s.dispatchDue c).causes = s.causes := by
  unfold State.dispatchDue; repeat' (first | split | dsimp only)
  all_goals (try simp)
@[simp] theorem State.dispatchDue_timeBase (s : State) (c : Nat) :
    (s.dispatchDue c).timeBase = s.timeBase := by
  unfold State.dispatchDue; repeat' (first | split | dsimp only)
  all_goals (try simp)
@[simp] theorem State.dispatchDue_pending (s : State) (c : Nat) :
    (s.dispatchDue c).pending = s.pending := by
  unfold State.dispatchDue; repeat' (first | split | dsimp only)
  all_goals (try simp)

/-! ### takeDue -/

@[simp] theorem State.takeDue_inputMap (s : State) (ps fs : List Nat) : (s.takeDue ps fs).inputMap = s.inputMap := by
  unfold State.takeDue
  rw [takeRuns_inputMap _ _ _ fun c t => State.expireFollow_inputMap t c]
  induction ps generalizing s with
  | nil => rfl
  | cons p ps ih => simp [ih]
@[simp] theorem State.takeDue_audio (s : State) (ps fs : List Nat) : (s.takeDue ps fs).audio = s.audio := by
  unfold State.takeDue
  rw [takeRuns_audio _ _ _ fun c t => State.expireFollow_audio t c]
  induction ps generalizing s with
  | nil => rfl
  | cons p ps ih => simp [ih]
@[simp] theorem State.takeDue_store (s : State) (ps fs : List Nat) : (s.takeDue ps fs).store = s.store := by
  unfold State.takeDue
  rw [takeRuns_store _ _ _ fun c t => State.expireFollow_store t c]
  induction ps generalizing s with
  | nil => rfl
  | cons p ps ih => simp [ih]
@[simp] theorem State.takeDue_calls (s : State) (ps fs : List Nat) : (s.takeDue ps fs).calls = s.calls := by
  unfold State.takeDue
  rw [takeRuns_calls _ _ _ fun c t => State.expireFollow_calls t c]
  induction ps generalizing s with
  | nil => rfl
  | cons p ps ih => simp [ih]
@[simp] theorem State.takeDue_watch (s : State) (ps fs : List Nat) : (s.takeDue ps fs).watch = s.watch := by
  unfold State.takeDue
  rw [takeRuns_watch _ _ _ fun c t => State.expireFollow_watch t c]
  induction ps generalizing s with
  | nil => rfl
  | cons p ps ih => simp [ih]
@[simp] theorem State.takeDue_staging (s : State) (ps fs : List Nat) : (s.takeDue ps fs).staging = s.staging := by
  unfold State.takeDue
  rw [takeRuns_staging _ _ _ fun c t => State.expireFollow_staging t c]
  induction ps generalizing s with
  | nil => rfl
  | cons p ps ih => simp [ih]
@[simp] theorem State.takeDue_causes (s : State) (ps fs : List Nat) : (s.takeDue ps fs).causes = s.causes := by
  unfold State.takeDue
  rw [takeRuns_causes _ _ _ fun c t => State.expireFollow_causes t c]
  induction ps generalizing s with
  | nil => rfl
  | cons p ps ih => simp [ih]
@[simp] theorem State.takeDue_timeBase (s : State) (ps fs : List Nat) : (s.takeDue ps fs).timeBase = s.timeBase := by
  unfold State.takeDue
  rw [takeRuns_timeBase _ _ _ fun c t => State.expireFollow_timeBase t c]
  induction ps generalizing s with
  | nil => rfl
  | cons p ps ih => simp [ih]
@[simp] theorem State.takeDue_pending (s : State) (ps fs : List Nat) : (s.takeDue ps fs).pending = s.pending := by
  unfold State.takeDue
  rw [takeRuns_pending _ _ _ fun c t => State.expireFollow_pending t c]
  induction ps generalizing s with
  | nil => rfl
  | cons p ps ih => simp [ih]

/-! ### timeoutDue -/

@[simp] theorem State.timeoutDue_points (s : State) :
    (s.timeoutDue).points = s.points := by
  unfold State.timeoutDue; repeat' (first | split | dsimp only)
  all_goals (try simp)
@[simp] theorem State.timeoutDue_inputMap (s : State) :
    (s.timeoutDue).inputMap = s.inputMap := by
  unfold State.timeoutDue; repeat' (first | split | dsimp only)
  all_goals (try simp)
@[simp] theorem State.timeoutDue_masks (s : State) :
    (s.timeoutDue).masks = s.masks := by
  unfold State.timeoutDue; repeat' (first | split | dsimp only)
  all_goals (try simp)
@[simp] theorem State.timeoutDue_audio (s : State) :
    (s.timeoutDue).audio = s.audio := by
  unfold State.timeoutDue; repeat' (first | split | dsimp only)
  all_goals (try simp)
@[simp] theorem State.timeoutDue_slots (s : State) :
    (s.timeoutDue).slots = s.slots := by
  unfold State.timeoutDue; repeat' (first | split | dsimp only)
  all_goals (try simp)
@[simp] theorem State.timeoutDue_store (s : State) :
    (s.timeoutDue).store = s.store := by
  unfold State.timeoutDue; repeat' (first | split | dsimp only)
  all_goals (try simp)
@[simp] theorem State.timeoutDue_runner (s : State) :
    (s.timeoutDue).runner = s.runner := by
  unfold State.timeoutDue; repeat' (first | split | dsimp only)
  all_goals (try simp)
@[simp] theorem State.timeoutDue_watch (s : State) :
    (s.timeoutDue).watch = s.watch := by
  unfold State.timeoutDue; repeat' (first | split | dsimp only)
  all_goals (try simp)
@[simp] theorem State.timeoutDue_staging (s : State) :
    (s.timeoutDue).staging = s.staging := by
  unfold State.timeoutDue; repeat' (first | split | dsimp only)
  all_goals (try simp)
@[simp] theorem State.timeoutDue_causes (s : State) :
    (s.timeoutDue).causes = s.causes := by
  unfold State.timeoutDue; repeat' (first | split | dsimp only)
  all_goals (try simp)
@[simp] theorem State.timeoutDue_timeBase (s : State) :
    (s.timeoutDue).timeBase = s.timeBase := by
  unfold State.timeoutDue; repeat' (first | split | dsimp only)
  all_goals (try simp)
@[simp] theorem State.timeoutDue_pending (s : State) :
    (s.timeoutDue).pending = s.pending := by
  unfold State.timeoutDue; repeat' (first | split | dsimp only)
  all_goals (try simp)

/-! ### commitCue -/

@[simp] theorem State.commitCue_points (s : State) (c : Cue) :
    (s.commitCue c).points = s.points := by
  unfold State.commitCue; repeat' (first | split | dsimp only)
  all_goals (try simp)
@[simp] theorem State.commitCue_inputMap (s : State) (c : Cue) :
    (s.commitCue c).inputMap = s.inputMap := by
  unfold State.commitCue; repeat' (first | split | dsimp only)
  all_goals (try simp)
@[simp] theorem State.commitCue_masks (s : State) (c : Cue) :
    (s.commitCue c).masks = s.masks := by
  unfold State.commitCue; repeat' (first | split | dsimp only)
  all_goals (try simp)
@[simp] theorem State.commitCue_audio (s : State) (c : Cue) :
    (s.commitCue c).audio = s.audio := by
  unfold State.commitCue; repeat' (first | split | dsimp only)
  all_goals (try simp)
@[simp] theorem State.commitCue_slots (s : State) (c : Cue) :
    (s.commitCue c).slots = s.slots := by
  unfold State.commitCue; repeat' (first | split | dsimp only)
  all_goals (try simp)
@[simp] theorem State.commitCue_zones (s : State) (c : Cue) :
    (s.commitCue c).zones = s.zones := by
  unfold State.commitCue; repeat' (first | split | dsimp only)
  all_goals (try simp)
@[simp] theorem State.commitCue_calls (s : State) (c : Cue) :
    (s.commitCue c).calls = s.calls := by
  unfold State.commitCue; repeat' (first | split | dsimp only)
  all_goals (try simp)
@[simp] theorem State.commitCue_watch (s : State) (c : Cue) :
    (s.commitCue c).watch = s.watch := by
  unfold State.commitCue; repeat' (first | split | dsimp only)
  all_goals (try simp)
@[simp] theorem State.commitCue_record (s : State) (c : Cue) :
    (s.commitCue c).record = s.record := by
  unfold State.commitCue; repeat' (first | split | dsimp only)
  all_goals (try simp)
@[simp] theorem State.commitCue_staging (s : State) (c : Cue) :
    (s.commitCue c).staging = s.staging := by
  unfold State.commitCue; repeat' (first | split | dsimp only)
  all_goals (try simp)
@[simp] theorem State.commitCue_causes (s : State) (c : Cue) :
    (s.commitCue c).causes = s.causes := by
  unfold State.commitCue; repeat' (first | split | dsimp only)
  all_goals (try simp)
@[simp] theorem State.commitCue_timeBase (s : State) (c : Cue) :
    (s.commitCue c).timeBase = s.timeBase := by
  unfold State.commitCue; repeat' (first | split | dsimp only)
  all_goals (try simp)
@[simp] theorem State.commitCue_pending (s : State) (c : Cue) :
    (s.commitCue c).pending = s.pending := by
  unfold State.commitCue; repeat' (first | split | dsimp only)
  all_goals (try simp)

/-! ### commitRemoveCue -/

@[simp] theorem State.commitRemoveCue_points (s : State) (n : Nat) :
    (s.commitRemoveCue n).points = s.points := by
  unfold State.commitRemoveCue; repeat' (first | split | dsimp only)
  all_goals (try simp)
@[simp] theorem State.commitRemoveCue_inputMap (s : State) (n : Nat) :
    (s.commitRemoveCue n).inputMap = s.inputMap := by
  unfold State.commitRemoveCue; repeat' (first | split | dsimp only)
  all_goals (try simp)
@[simp] theorem State.commitRemoveCue_masks (s : State) (n : Nat) :
    (s.commitRemoveCue n).masks = s.masks := by
  unfold State.commitRemoveCue; repeat' (first | split | dsimp only)
  all_goals (try simp)
@[simp] theorem State.commitRemoveCue_audio (s : State) (n : Nat) :
    (s.commitRemoveCue n).audio = s.audio := by
  unfold State.commitRemoveCue; repeat' (first | split | dsimp only)
  all_goals (try simp)
@[simp] theorem State.commitRemoveCue_slots (s : State) (n : Nat) :
    (s.commitRemoveCue n).slots = s.slots := by
  unfold State.commitRemoveCue; repeat' (first | split | dsimp only)
  all_goals (try simp)
@[simp] theorem State.commitRemoveCue_zones (s : State) (n : Nat) :
    (s.commitRemoveCue n).zones = s.zones := by
  unfold State.commitRemoveCue; repeat' (first | split | dsimp only)
  all_goals (try simp)
@[simp] theorem State.commitRemoveCue_calls (s : State) (n : Nat) :
    (s.commitRemoveCue n).calls = s.calls := by
  unfold State.commitRemoveCue; repeat' (first | split | dsimp only)
  all_goals (try simp)
@[simp] theorem State.commitRemoveCue_watch (s : State) (n : Nat) :
    (s.commitRemoveCue n).watch = s.watch := by
  unfold State.commitRemoveCue; repeat' (first | split | dsimp only)
  all_goals (try simp)
@[simp] theorem State.commitRemoveCue_record (s : State) (n : Nat) :
    (s.commitRemoveCue n).record = s.record := by
  unfold State.commitRemoveCue; repeat' (first | split | dsimp only)
  all_goals (try simp)
@[simp] theorem State.commitRemoveCue_staging (s : State) (n : Nat) :
    (s.commitRemoveCue n).staging = s.staging := by
  unfold State.commitRemoveCue; repeat' (first | split | dsimp only)
  all_goals (try simp)
@[simp] theorem State.commitRemoveCue_causes (s : State) (n : Nat) :
    (s.commitRemoveCue n).causes = s.causes := by
  unfold State.commitRemoveCue; repeat' (first | split | dsimp only)
  all_goals (try simp)
@[simp] theorem State.commitRemoveCue_timeBase (s : State) (n : Nat) :
    (s.commitRemoveCue n).timeBase = s.timeBase := by
  unfold State.commitRemoveCue; repeat' (first | split | dsimp only)
  all_goals (try simp)
@[simp] theorem State.commitRemoveCue_pending (s : State) (n : Nat) :
    (s.commitRemoveCue n).pending = s.pending := by
  unfold State.commitRemoveCue; repeat' (first | split | dsimp only)
  all_goals (try simp)

/-! ### commitZoneSetup -/

@[simp] theorem State.commitZoneSetup_lanes (s : State) (z : Nat) (v : ZoneSetup) :
    (s.commitZoneSetup z v).lanes = s.lanes := by
  unfold State.commitZoneSetup; repeat' (first | split | dsimp only)
  all_goals (try simp)
@[simp] theorem State.commitZoneSetup_points (s : State) (z : Nat) (v : ZoneSetup) :
    (s.commitZoneSetup z v).points = s.points := by
  unfold State.commitZoneSetup; repeat' (first | split | dsimp only)
  all_goals (try simp)
@[simp] theorem State.commitZoneSetup_inputMap (s : State) (z : Nat) (v : ZoneSetup) :
    (s.commitZoneSetup z v).inputMap = s.inputMap := by
  unfold State.commitZoneSetup; repeat' (first | split | dsimp only)
  all_goals (try simp)
@[simp] theorem State.commitZoneSetup_masks (s : State) (z : Nat) (v : ZoneSetup) :
    (s.commitZoneSetup z v).masks = s.masks := by
  unfold State.commitZoneSetup; repeat' (first | split | dsimp only)
  all_goals (try simp)
@[simp] theorem State.commitZoneSetup_audio (s : State) (z : Nat) (v : ZoneSetup) :
    (s.commitZoneSetup z v).audio = s.audio := by
  unfold State.commitZoneSetup; repeat' (first | split | dsimp only)
  all_goals (try simp)
@[simp] theorem State.commitZoneSetup_slots (s : State) (z : Nat) (v : ZoneSetup) :
    (s.commitZoneSetup z v).slots = s.slots := by
  unfold State.commitZoneSetup; repeat' (first | split | dsimp only)
  all_goals (try simp)
@[simp] theorem State.commitZoneSetup_runner (s : State) (z : Nat) (v : ZoneSetup) :
    (s.commitZoneSetup z v).runner = s.runner := by
  unfold State.commitZoneSetup; repeat' (first | split | dsimp only)
  all_goals (try simp)
@[simp] theorem State.commitZoneSetup_calls (s : State) (z : Nat) (v : ZoneSetup) :
    (s.commitZoneSetup z v).calls = s.calls := by
  unfold State.commitZoneSetup; repeat' (first | split | dsimp only)
  all_goals (try simp)
@[simp] theorem State.commitZoneSetup_watch (s : State) (z : Nat) (v : ZoneSetup) :
    (s.commitZoneSetup z v).watch = s.watch := by
  unfold State.commitZoneSetup; repeat' (first | split | dsimp only)
  all_goals (try simp)
@[simp] theorem State.commitZoneSetup_record (s : State) (z : Nat) (v : ZoneSetup) :
    (s.commitZoneSetup z v).record = s.record := by
  unfold State.commitZoneSetup; repeat' (first | split | dsimp only)
  all_goals (try simp)
@[simp] theorem State.commitZoneSetup_staging (s : State) (z : Nat) (v : ZoneSetup) :
    (s.commitZoneSetup z v).staging = s.staging := by
  unfold State.commitZoneSetup; repeat' (first | split | dsimp only)
  all_goals (try simp)
@[simp] theorem State.commitZoneSetup_causes (s : State) (z : Nat) (v : ZoneSetup) :
    (s.commitZoneSetup z v).causes = s.causes := by
  unfold State.commitZoneSetup; repeat' (first | split | dsimp only)
  all_goals (try simp)
@[simp] theorem State.commitZoneSetup_timeBase (s : State) (z : Nat) (v : ZoneSetup) :
    (s.commitZoneSetup z v).timeBase = s.timeBase := by
  unfold State.commitZoneSetup; repeat' (first | split | dsimp only)
  all_goals (try simp)
@[simp] theorem State.commitZoneSetup_pending (s : State) (z : Nat) (v : ZoneSetup) :
    (s.commitZoneSetup z v).pending = s.pending := by
  unfold State.commitZoneSetup; repeat' (first | split | dsimp only)
  all_goals (try simp)

/-! ### commitImage -/

@[simp] theorem State.commitImage_points (s : State) (m : Image) :
    (s.commitImage m).points = s.points := by
  unfold State.commitImage; split
  all_goals (try simp)
@[simp] theorem State.commitImage_inputMap (s : State) (m : Image) :
    (s.commitImage m).inputMap = s.inputMap := by
  unfold State.commitImage; split
  all_goals (try simp)
@[simp] theorem State.commitImage_masks (s : State) (m : Image) :
    (s.commitImage m).masks = s.masks := by
  unfold State.commitImage; split
  all_goals (try simp)
@[simp] theorem State.commitImage_audio (s : State) (m : Image) :
    (s.commitImage m).audio = s.audio := by
  unfold State.commitImage; split
  all_goals (try simp)
@[simp] theorem State.commitImage_slots (s : State) (m : Image) :
    (s.commitImage m).slots = s.slots := by
  unfold State.commitImage; split
  all_goals (try simp)
@[simp] theorem State.commitImage_calls (s : State) (m : Image) :
    (s.commitImage m).calls = s.calls := by
  unfold State.commitImage; split
  all_goals (try simp)
@[simp] theorem State.commitImage_watch (s : State) (m : Image) :
    (s.commitImage m).watch = s.watch := by
  unfold State.commitImage; split
  all_goals (try simp)
@[simp] theorem State.commitImage_record (s : State) (m : Image) :
    (s.commitImage m).record = s.record := by
  unfold State.commitImage; split
  all_goals (try simp)
@[simp] theorem State.commitImage_staging (s : State) (m : Image) :
    (s.commitImage m).staging = s.staging := by
  unfold State.commitImage; split
  all_goals (try simp)
@[simp] theorem State.commitImage_causes (s : State) (m : Image) :
    (s.commitImage m).causes = s.causes := by
  unfold State.commitImage; split
  all_goals (try simp)
@[simp] theorem State.commitImage_timeBase (s : State) (m : Image) :
    (s.commitImage m).timeBase = s.timeBase := by
  unfold State.commitImage; split
  all_goals (try simp)
@[simp] theorem State.commitImage_pending (s : State) (m : Image) :
    (s.commitImage m).pending = s.pending := by
  unfold State.commitImage; split
  all_goals (try simp)

/-! ### takeCommit -/

@[simp] theorem State.takeCommit_points (s : State) (l : Lane) (m : Image) :
    (s.takeCommit l m).points = s.points := by simp [State.takeCommit]
@[simp] theorem State.takeCommit_inputMap (s : State) (l : Lane) (m : Image) :
    (s.takeCommit l m).inputMap = s.inputMap := by simp [State.takeCommit]
@[simp] theorem State.takeCommit_masks (s : State) (l : Lane) (m : Image) :
    (s.takeCommit l m).masks = s.masks := by simp [State.takeCommit]
@[simp] theorem State.takeCommit_audio (s : State) (l : Lane) (m : Image) :
    (s.takeCommit l m).audio = s.audio := by simp [State.takeCommit]
@[simp] theorem State.takeCommit_slots (s : State) (l : Lane) (m : Image) :
    (s.takeCommit l m).slots = s.slots := by simp [State.takeCommit]
@[simp] theorem State.takeCommit_calls (s : State) (l : Lane) (m : Image) :
    (s.takeCommit l m).calls = s.calls := by simp [State.takeCommit]
@[simp] theorem State.takeCommit_watch (s : State) (l : Lane) (m : Image) :
    (s.takeCommit l m).watch = s.watch := by simp [State.takeCommit]
@[simp] theorem State.takeCommit_record (s : State) (l : Lane) (m : Image) :
    (s.takeCommit l m).record = s.record := by simp [State.takeCommit]
@[simp] theorem State.takeCommit_causes (s : State) (l : Lane) (m : Image) :
    (s.takeCommit l m).causes = s.causes := by simp [State.takeCommit]
@[simp] theorem State.takeCommit_timeBase (s : State) (l : Lane) (m : Image) :
    (s.takeCommit l m).timeBase = s.timeBase := by simp [State.takeCommit]
@[simp] theorem State.takeCommit_pending (s : State) (l : Lane) (m : Image) :
    (s.takeCommit l m).pending = s.pending := by simp [State.takeCommit]

/-! ### tick -/

@[simp] theorem State.tick_inputMap (s : State) : s.tick.inputMap = s.inputMap := by simp [State.tick]
@[simp] theorem State.tick_store (s : State) : s.tick.store = s.store := by simp [State.tick]
@[simp] theorem State.tick_watch (s : State) : s.tick.watch = s.watch := by simp [State.tick]
@[simp] theorem State.tick_staging (s : State) : s.tick.staging = s.staging := by simp [State.tick]
@[simp] theorem State.tick_causes (s : State) : s.tick.causes = s.causes := by simp [State.tick]
@[simp] theorem State.tick_pending (s : State) : s.tick.pending = s.pending := by simp [State.tick]

end Sys2Proof.Machine
end

