-- ==== Sys2Proof/Laws/Answers.lean ====
section
/-! SUPPORT. What answering a request, adding notices, handing an event to the record and taking a step can do: one lemma for each,
which claims about a command cite in place of unfolding them. -/

namespace Sys2Proof.Machine

/-! ## The step -/

theorem step_cons (s : State) (c : Instr) (rest : List Instr) (h : s.pending = c :: rest) :
    step s = exec c { s with pending := rest } := by
  unfold step; rw [h]

theorem step_nil (s : State) (h : s.pending = []) : step s = .next s.tick := by
  unfold step; rw [h]

/-! ## Notices -/

@[simp] theorem LaneState.notifyAll_nil (x : LaneState) : x.notifyAll [] = x := rfl

@[simp] theorem LaneState.notifyAll_cons (x : LaneState) (k : Notice) (ks : List Notice) :
    x.notifyAll (k :: ks) = (x.notify k).notifyAll ks := rfl

/-- A kind already in the set stays once (R183). -/
@[simp] theorem LaneState.notify_notify_self (x : LaneState) (k : Notice) : (x.notify k).notify k = x.notify k := by
  cases k <;> rfl

/-- Kinds join a set in any order (R183). -/
theorem LaneState.notify_comm (x : LaneState) (j k : Notice) : (x.notify j).notify k = (x.notify k).notify j := by
  cases j <;> cases k <;> rfl

theorem LaneState.notifyAll_notify (x : LaneState) (k : Notice) (ks : List Notice) :
    (x.notify k).notifyAll ks = (x.notifyAll ks).notify k := by
  induction ks generalizing x with
  | nil => rfl
  | cons j js ih => rw [notifyAll_cons, notify_comm, ih, notifyAll_cons]

theorem LaneState.notifyAll_append (x : LaneState) (js ks : List Notice) :
    x.notifyAll (js ++ ks) = (x.notifyAll js).notifyAll ks := by
  simp [LaneState.notifyAll, List.foldl_append]

theorem Noticed.refl (s : State) : Noticed s s [] := fun _ => rfl

/-- States whose lanes are alike have been given the same notices. -/
theorem Noticed.of_lanes {s t u : State} {ks : List Notice} (h : Noticed s t ks) (e : u.lanes = t.lanes) : Noticed s u ks := by
  intro m; rw [e]; exact h m

theorem Noticed.noticeAll {s t : State} {ks : List Notice} (h : Noticed s t ks) (k : Notice) :
    Noticed s (t.noticeAll k) (ks ++ [k]) := by
  intro m
  rw [State.lane_noticeAll, h m, LaneState.notifyAll_append]
  rfl

theorem Noticed.trans {s t u : State} {js ks : List Notice} (h : Noticed s t js) (g : Noticed t u ks) :
    Noticed s u (js ++ ks) := by
  intro m
  rw [g m, h m, LaneState.notifyAll_append]

/-- A notice set after a kind is added holds what it held and that kind, and is not empty (R183). -/
theorem LaneState.attention_notify (x : LaneState) (k : Notice) : (x.notify k).attention = true := by
  cases k <;> simp [LaneState.notify, NoticeSet.add, LaneState.attention, NoticeSet.any]

/-! ## Answers -/

/-- What an answer does to each lane. -/
theorem State.lane_answer (s : State) (i : Instr) (l m : Lane) (f : Frame) (st : Status) (b : List Byte)
    (h : requestFrame i = some (l, f)) :
    (s.answer i st b).lanes.get m =
      if m = l then { s.lanes.get m with slot := some f, reply := some (replyChars f.tag st b) } else s.lanes.get m := by
  rw [State.answer_eq s i l f st b h]
  exact State.lane_onLane s l m _

/-- An answer changes lanes alone. -/
theorem State.answer_frame (s : State) (i : Instr) (st : Status) (b : List Byte) :
    s.answer i st b = { s with lanes := (s.answer i st b).lanes } := by
  unfold State.answer
  split <;> rfl

/-- A request answered on a state that has been given notices. -/
theorem Answered.of_answer {s u : State} {i : Instr} {l : Lane} {f : Frame} {ks : List Notice}
    (h : requestFrame i = some (l, f)) (hu : Noticed s u ks) (st : Status) (b : List Byte) :
    Answered s (u.answer i st b) i st b ks := by
  refine ⟨l, f, h, fun m => ?_⟩
  rw [State.lane_answer u i l m f st b h, hu m]

/-- A request refused without any other effect. -/
theorem Refused.of_answer {s : State} {i : Instr} {l : Lane} {f : Frame} {st : Status} {b : List Byte}
    (h : requestFrame i = some (l, f)) (e : exec i s = .next (s.answer i st b)) : Refused s i st b :=
  ⟨_, e, Answered.of_answer h (Noticed.refl s) st b, State.answer_frame s i st b⟩

/-- A read served without any other effect. -/
theorem ServedRead.of_answer {s : State} {i : Instr} {l : Lane} {f : Frame} {b : List Byte}
    (h : requestFrame i = some (l, f)) (e : exec i s = .next (s.answer i .ok b)) : ServedRead s i b :=
  ⟨_, e, Answered.of_answer h (Noticed.refl s) .ok b, State.answer_frame s i .ok b⟩

/-- A request that FULL lanes alone may send, on Lane P (R181). -/
theorem fullOnly_p (i : Instr) (s k : State) : fullOnly .p i s k = .next (s.answer i .refusedRole []) := rfl

/-- A request that FULL lanes alone may send, on one of them. -/
theorem fullOnly_full (l : Lane) (i : Instr) (s k : State) (h : l ≠ .p) : fullOnly l i s k = .next k := by
  cases l with
  | a => rfl
  | b => rfl
  | p => exact absurd rfl h

/-! ## The record -/

/-- Outside RUNNING and INTERVAL an event handed to the record does nothing (R155). -/
theorem Record.hand_of_not_inShow (r : Record) (lane : LogLane) (cue zone : Option Nat) (d : Detail)
    (h : r.state.inShow = false) : r.hand lane cue zone d = r := by
  simp [Record.hand, h]

/-- What an event handed to the record can do: nothing, or be counted and stored with the next sequence number, or be counted
and lost (R153, R155, R156). -/
theorem Record.hand_cases (r : Record) (lane : LogLane) (cue zone : Option Nat) (d : Detail) :
    (r.state.inShow = false ∧ r.hand lane cue zone d = r) ∨
    (r.state.inShow = true ∧ r.full = false ∧
      r.hand lane cue zone d = { r with
        counters := r.counters.count d, log := keepLatest r.log ⟨r.written, r.clock, lane, cue, zone, d⟩,
        written := r.written + 1 }) ∨
    (r.state.inShow = true ∧ r.full = true ∧
      r.hand lane cue zone d = { r with counters := r.counters.count d, lost := bump Config.max16 r.lost }) := by
  unfold Record.hand
  cases hs : r.state.inShow with
  | false => exact .inl ⟨rfl, by simp⟩
  | true =>
    refine .inr ?_
    have hf : Record.full { r with counters := r.counters.count d } = r.full := rfl
    cases h : r.full with
    | false => exact .inl ⟨rfl, rfl, by simp [Record.offer, hf, h]⟩
    | true => exact .inr ⟨rfl, rfl, by simp [Record.offer, hf, h]⟩

@[simp] theorem Record.hand_state (r : Record) (lane : LogLane) (cue zone : Option Nat) (d : Detail) :
    (r.hand lane cue zone d).state = r.state := by
  rcases r.hand_cases lane cue zone d with ⟨_, e⟩ | ⟨_, _, e⟩ | ⟨_, _, e⟩ <;> rw [e]
@[simp] theorem Record.hand_startMode (r : Record) (lane : LogLane) (cue zone : Option Nat) (d : Detail) :
    (r.hand lane cue zone d).startMode = r.startMode := by
  rcases r.hand_cases lane cue zone d with ⟨_, e⟩ | ⟨_, _, e⟩ | ⟨_, _, e⟩ <;> rw [e]
@[simp] theorem Record.hand_delayRemaining (r : Record) (lane : LogLane) (cue zone : Option Nat) (d : Detail) :
    (r.hand lane cue zone d).delayRemaining = r.delayRemaining := by
  rcases r.hand_cases lane cue zone d with ⟨_, e⟩ | ⟨_, _, e⟩ | ⟨_, _, e⟩ <;> rw [e]
@[simp] theorem Record.hand_logMode (r : Record) (lane : LogLane) (cue zone : Option Nat) (d : Detail) :
    (r.hand lane cue zone d).logMode = r.logMode := by
  rcases r.hand_cases lane cue zone d with ⟨_, e⟩ | ⟨_, _, e⟩ | ⟨_, _, e⟩ <;> rw [e]
@[simp] theorem Record.hand_neverStarted (r : Record) (lane : LogLane) (cue zone : Option Nat) (d : Detail) :
    (r.hand lane cue zone d).neverStarted = r.neverStarted := by
  rcases r.hand_cases lane cue zone d with ⟨_, e⟩ | ⟨_, _, e⟩ | ⟨_, _, e⟩ <;> rw [e]
@[simp] theorem Record.hand_clock (r : Record) (lane : LogLane) (cue zone : Option Nat) (d : Detail) :
    (r.hand lane cue zone d).clock = r.clock := by
  rcases r.hand_cases lane cue zone d with ⟨_, e⟩ | ⟨_, _, e⟩ | ⟨_, _, e⟩ <;> rw [e]
@[simp] theorem Record.hand_intervals (r : Record) (lane : LogLane) (cue zone : Option Nat) (d : Detail) :
    (r.hand lane cue zone d).intervals = r.intervals := by
  rcases r.hand_cases lane cue zone d with ⟨_, e⟩ | ⟨_, _, e⟩ | ⟨_, _, e⟩ <;> rw [e]

/-- A list with one entry more keeps the latest 2048 (R156). -/
theorem length_keepLatest (log : List LogEntry) (e : LogEntry) :
    (keepLatest log e).length = min (log.length + 1) Config.logSize := by
  simp only [keepLatest, List.length_drop, List.length_append, List.length_cons, List.length_nil]
  omega

end Sys2Proof.Machine
end

