-- ==== Sys2Proof/Laws/Encoding.lean ====
section
/-! SUPPORT. Field encodings and their readings (R180): a number written in k characters and read back is that number, where k
characters can carry it. -/

namespace Sys2Proof

@[simp] theorem length_be (k n : Nat) : (be k n).length = k := by
  induction k with
  | zero => rfl
  | succ k ih => simp [be, ih]

@[simp] theorem length_signed (x : Int) : (signed x).length = 2 := length_be 2 _

theorem be_one (n : Nat) : be 1 n = [BitVec.ofNat 8 n] := by simp [be]

theorem be_two (n : Nat) : be 2 n = [BitVec.ofNat 8 (n / 256), BitVec.ofNat 8 n] := by simp [be]

theorem be_three (n : Nat) : be 3 n = [BitVec.ofNat 8 (n / 65536), BitVec.ofNat 8 (n / 256), BitVec.ofNat 8 n] := by
  simp [be]

theorem be_four (n : Nat) :
    be 4 n = [BitVec.ofNat 8 (n / 16777216), BitVec.ofNat 8 (n / 65536), BitVec.ofNat 8 (n / 256), BitVec.ofNat 8 n] := by
  simp [be]

theorem one_read (n : Nat) (h : n < 256) : (BitVec.ofNat 8 n).toNat = n := by
  simp only [BitVec.toNat_ofNat]; omega

theorem two_read (n : Nat) (h : n < 65536) : nat2 (BitVec.ofNat 8 (n / 256)) (BitVec.ofNat 8 n) = n := by
  simp only [nat2, BitVec.toNat_ofNat]; omega

theorem three_read (n : Nat) (h : n < 16777216) :
    nat3 (BitVec.ofNat 8 (n / 65536)) (BitVec.ofNat 8 (n / 256)) (BitVec.ofNat 8 n) = n := by
  simp only [nat3, BitVec.toNat_ofNat]; omega

theorem four_read (n : Nat) (h : n < 4294967296) :
    nat4 (BitVec.ofNat 8 (n / 16777216)) (BitVec.ofNat 8 (n / 65536)) (BitVec.ofNat 8 (n / 256)) (BitVec.ofNat 8 n) = n := by
  simp only [nat4, BitVec.toNat_ofNat]; omega

/-- Two characters written from what they carry. -/
theorem two_write (x y : Byte) : be 2 (nat2 x y) = [x, y] := by
  have hx := x.isLt
  have hy := y.isLt
  rw [be_two]
  have e1 : BitVec.ofNat 8 (nat2 x y / 256) = x := by
    apply BitVec.eq_of_toNat_eq; simp only [nat2, BitVec.toNat_ofNat]; omega
  have e2 : BitVec.ofNat 8 (nat2 x y) = y := by
    apply BitVec.eq_of_toNat_eq; simp only [nat2, BitVec.toNat_ofNat]; omega
  rw [e1, e2]

/-- Three characters written from what they carry. -/
theorem three_write (x y z : Byte) : be 3 (nat3 x y z) = [x, y, z] := by
  have hx := x.isLt
  have hy := y.isLt
  have hz := z.isLt
  rw [be_three]
  have e1 : BitVec.ofNat 8 (nat3 x y z / 65536) = x := by
    apply BitVec.eq_of_toNat_eq; simp only [nat3, BitVec.toNat_ofNat]; omega
  have e2 : BitVec.ofNat 8 (nat3 x y z / 256) = y := by
    apply BitVec.eq_of_toNat_eq; simp only [nat3, BitVec.toNat_ofNat]; omega
  have e3 : BitVec.ofNat 8 (nat3 x y z) = z := by
    apply BitVec.eq_of_toNat_eq; simp only [nat3, BitVec.toNat_ofNat]; omega
  rw [e1, e2, e3]

/-- A signed value within 16 bits, written and read back (R180). -/
theorem signed_read (x : Int) (h : -32768 ≤ x) (h' : x ≤ 32767) :
    ∃ a b, signed x = [a, b] ∧ int2 a b = x := by
  refine ⟨_, _, be_two _, ?_⟩
  have hr : (x % 65536).toNat < 65536 := by omega
  simp only [int2, two_read _ hr]
  split <;> omega

end Sys2Proof
end

