-- ==== Sys2Proof/Laws/Motion.lean ====
section
/-! SUPPORT. What the shared operations of the cue runner, the fade unit, the zone router and the call queue can do, one lemma for
each: runs looked up after a change, points and slots after points leave or slots end, zones after a call's zones move, what a
list of actions leaves, freeing reports and beats, and commands in order. -/

namespace Sys2Proof.Machine

/-! ## The store -/

/-- A cue found by its number has that number (R61). -/
theorem Store.cue?_number (st : Store) (n : Nat) (c : Cue) (h : st.cue? n = some c) : c.number = n := by
  have := List.find?_some h
  simpa using this

/-- A cue found is of the stack. -/
theorem Store.cue?_mem (st : Store) (n : Nat) (c : Cue) (h : st.cue? n = some c) : c ∈ st.cues := List.mem_of_find?_eq_some h

/-- The next cue after `x` is a cue of the stack above it (R62). -/
theorem Store.nextAfter_above (st : Store) (x n : Nat) (h : st.nextAfter x = some n) :
    x < n ∧ ∃ c ∈ st.cues, c.number = n := by
  unfold Store.nextAfter at h
  obtain ⟨c, hc, rfl⟩ := Option.map_eq_some_iff.mp h
  exact ⟨by simpa using List.find?_some hc, c, List.mem_of_find?_eq_some hc, rfl⟩

/-! ## Runs -/

theorem State.run?_cue (s : State) (c : Nat) (r : Run) (h : s.run? c = some r) : r.cue = c := by
  have := List.find?_some h
  simpa using this

theorem find?_map_cue (rs : List Run) (c d : Nat) (f : Run → Run) (hf : ∀ r, (f r).cue = r.cue) :
    (rs.map fun r => if r.cue = c then f r else r).find? (fun r => r.cue == d) =
      if d = c then (rs.find? fun r => r.cue == d).map f else rs.find? fun r => r.cue == d := by
  induction rs with
  | nil => simp
  | cons r rs ih =>
    by_cases hc : r.cue = c
    · by_cases hd : r.cue = d
      · subst hc; subst hd; simp [hf]
      · have : ¬ d = c := fun e => hd (hc.trans e.symm)
        simp [hc, hf, ih, this, show (c == d) = false by simp; exact fun e => this e.symm]
    · by_cases hd : r.cue = d
      · have : ¬ d = c := fun e => hc (hd.trans e)
        simp [hd, this]
      · simp [hc, hd, ih]

/-- A run looked up after the runs of a cue have changed. -/
theorem State.run?_onRun (s : State) (c d : Nat) (f : Run → Run) (hf : ∀ r, (f r).cue = r.cue) :
    (s.onRun c f).run? d = if d = c then (s.run? d).map f else s.run? d := find?_map_cue _ c d f hf

theorem find?_filter_cue (rs : List Run) (c d : Nat) :
    (rs.filter fun r => r.cue != c).find? (fun r => r.cue == d) =
      if d = c then none else rs.find? fun r => r.cue == d := by
  by_cases h : d = c
  · subst h
    simp
  · rw [if_neg h]
    induction rs with
    | nil => rfl
    | cons r rs ih =>
      by_cases hc : r.cue = c
      · have hd : ¬ r.cue = d := fun e => h (e.symm.trans hc)
        have hb : (r.cue != c) = false := by simp [hc]
        rw [List.filter_cons_of_neg (by simp [hc]), ih]
        simp [hd]
      · rw [List.filter_cons_of_pos (by simp [hc])]
        by_cases hd : r.cue = d
        · simp [hd]
        · simp [hd, ih]

/-- A run looked up after the run of a cue has left (R89). -/
theorem State.run?_dropRun (s : State) (c d : Nat) : (s.dropRun c).run? d = if d = c then none else s.run? d :=
  find?_filter_cue _ c d

/-- What the completion check can do: nothing, or the run leaves the list and RUN is added to every lane (R92). -/
theorem State.checkCompletion_cases (s : State) (c : Nat) :
    s.checkCompletion c = s ∨ (∃ r, s.run? c = some r ∧ r.isDone = true ∧ s.checkCompletion c = s.dropRun c) := by
  unfold State.checkCompletion
  split
  · rename_i r hr
    split
    · exact .inr ⟨r, hr, ‹_›, rfl⟩
    · exact .inl rfl
  · exact .inl rfl

/-- Runs lost or kept, a completion check gives the lanes nothing but RUN. -/
theorem State.checkCompletion_noticed (s : State) (c : Nat) :
    Noticed s (s.checkCompletion c) [] ∨ Noticed s (s.checkCompletion c) [.run] := by
  rcases s.checkCompletion_cases c with e | ⟨_, _, _, e⟩
  · rw [e]; exact .inl (Noticed.refl s)
  · rw [e]; exact .inr fun m => State.lane_noticeAll _ _ m

/-! ## Points and slots -/

/-- A point that leaves its slot keeps base and trim, and no other point changes (R46, R51, R52). -/
theorem State.point_leave (s : State) (p q : Nat) :
    (s.leave p).point q = if q = p then { s.point q with membership := none } else s.point q := by
  have key : ∀ t : State, t.points = (s.setMembership p none).points →
      t.point q = if q = p then { s.point q with membership := none } else s.point q := by
    intro t ht
    have : t.point q = (s.setMembership p none).point q := by unfold State.point; rw [ht]
    rw [this, State.setMembership, State.point_onPoint]
    by_cases hq : q = p
    · subst hq
      by_cases hb : q < Config.points
      · simp [hb]
      · have : s.point q = {} := Table.getD_of_le _ _ _ (Nat.le_of_not_lt hb)
        simp [this]
    · simp [hq]
  unfold State.leave
  split
  · rename_i hm
    by_cases hq : q = p
    · subst hq
      simp only [if_true]
      rw [← hm]
    · simp [hq]
  · split
    · exact key _ rfl
    · dsimp only
      split
      · refine key _ ?_
        simp
      · exact key _ rfl

/-- Points that leave their slots keep bases and trims, and no other point changes. -/
theorem State.point_leaveAll (ps : List Nat) (s : State) (q : Nat) :
    (s.leaveAll ps).point q = if q ∈ ps then { s.point q with membership := none } else s.point q := by
  induction ps generalizing s with
  | nil => simp [State.leaveAll]
  | cons p ps ih =>
    have : s.leaveAll (p :: ps) = (s.leave p).leaveAll ps := rfl
    rw [this, ih, State.point_leave]
    by_cases h : q = p
    · subst h; by_cases h' : q ∈ ps <;> simp [h']
    · by_cases h' : q ∈ ps <;> simp [h, h']

/-- A point after its base is written. -/
theorem State.point_setBase (s : State) (p q : Nat) (x : Int) :
    (s.setBase p x).point q = if q = p ∧ q < Config.points then { s.point q with base := clampBase x } else s.point q :=
  State.point_onPoint s p q _

/-- A slot that completes is FREE and the other slots stand as they were (R44). -/
theorem State.slot_completeSlot (s : State) (k j : Nat) :
    (s.completeSlot k).slot j = if j = k then none else s.slot j := by
  unfold State.completeSlot
  split
  · rename_i h
    by_cases e : j = k
    · rw [e, h]; simp
    · simp [e]
  · rename_i f h
    have hs : ∀ o t, (State.reportFreed o t).slot j = t.slot j := by
      intro o t; unfold State.slot; rw [State.reportFreed_slots]
    have hc : (s.completeMembers f).slot j = s.slot j := by unfold State.slot; rw [State.completeMembers_slots]
    rw [hs, State.slot_setSlot, hc]
    by_cases e : j = k
    · subst e
      by_cases hb : j < Config.slots
      · simp [hb]
      · have : s.slot j = none := Table.getD_of_le _ _ _ (Nat.le_of_not_lt hb)
        simp [this]
    · simp [e]

/-- What a millisecond of a slot can do: nothing to a FREE one; its completion; or its members' bases and its elapsed time (R41). -/
theorem State.advanceSlot_cases (s : State) (k : Nat) :
    (s.slot k = none ∧ s.advanceSlot k = s) ∨
    ∃ f, s.slot k = some f ∧
      ((f.duration ≤ f.elapsed + 1 ∧ s.advanceSlot k = s.completeSlot k) ∨
        (f.elapsed + 1 < f.duration ∧ s.advanceSlot k =
          (s.writeFade f (f.curve.shape (progress (f.elapsed + 1) f.duration))).setSlot k
            (some { f with elapsed := f.elapsed + 1 }))) := by
  unfold State.advanceSlot
  cases h : s.slot k with
  | none => exact .inl ⟨rfl, rfl⟩
  | some f =>
    refine .inr ⟨f, rfl, ?_⟩
    dsimp only
    by_cases hd : f.duration ≤ f.elapsed + 1
    · exact .inl ⟨hd, if_pos hd⟩
    · exact .inr ⟨Nat.lt_of_not_le hd, if_neg hd⟩

/-! ## Zones and calls -/

/-- A zone that begins to be targeted. -/
theorem Zone.beginRamp_attack (z : Zone) (depth : Int) (time : Nat) :
    { z with targeted := true }.beginRamp .attack depth time = z.attacked depth time := by
  unfold Zone.beginRamp Zone.attacked
  split <;> rfl

/-- A zone that ceases to be targeted. -/
theorem Zone.beginRamp_release (z : Zone) (time : Nat) :
    { z with targeted := false }.beginRamp .release 0 time = z.released time := by
  unfold Zone.beginRamp Zone.released
  split <;> rfl

/-- A zone as the live call passes from one zone set to another (R110). -/
theorem State.zone_retarget (s : State) (old new : ZoneSet) (z : Nat) (h : z < Config.zones) :
    (s.retarget old new).zone z =
      if new.getLsbD z then (s.zone z).attacked (s.zoneSetup z).duckDepth s.store.showSetup.duckAttack
      else if old.getLsbD z then (s.zone z).released s.store.showSetup.duckRelease
      else s.zone z := by
  have := Table.getD_mapIdx (s.retargetZone old new) s.zones z ({} : Zone) ({} : Zone) h
  unfold State.zone State.retarget
  rw [this]
  unfold State.retargetZone
  split
  · exact Zone.beginRamp_attack _ _ _
  · split
    · exact Zone.beginRamp_release _ _
    · rfl

/-- A lane has a call exactly when the queue's lanes hold it (R113). -/
theorem Calls.holds_iff (q : Calls) (l : Lane) : q.holds l = true ↔ l ∈ q.lanes := by
  unfold Calls.holds Calls.lanes
  cases q.live with
  | none => simp
  | some x =>
    simp only [Bool.or_eq_true, beq_iff_eq, List.any_eq_true, List.singleton_append, List.mem_cons, List.mem_map]
    exact ⟨fun h => h.imp Eq.symm id, fun h => h.imp Eq.symm id⟩

/-- A duck on its way stands on the exact line rounded down (R109). -/
theorem Zone.tick_of_ramp (z : Zone) (r : Ramp) (h : z.ramp = some r) :
    z.tick = if r.time ≤ r.elapsed + 1 then { z with duck := r.target, ramp := none }
      else { z with duck := rampDuck r.start r.target (r.elapsed + 1) r.time, ramp := some { r with elapsed := r.elapsed + 1 } } := by
  unfold Zone.tick
  rw [h]
  dsimp only
  split
  · simp [Zone.endRamp, h]
  · rfl

/-! ## Lists of actions (R90) -/

@[simp] theorem routeAfter_nil (z : Nat) (m : Option Nat) : routeAfter z m [] = m := rfl

@[simp] theorem maskAfter_nil (m : Nat) (on : Bool) : maskAfter m on [] = on := rfl

@[simp] theorem lineAfter_nil (n : Nat) (x : LineState) : lineAfter n x [] = x := rfl

@[simp] theorem pointAfter_nil (st : Store) (p : Nat) (q : Point) : pointAfter st p q [] = q := rfl

/-- A list's effect on a route is that of its first part and then of its second. -/
theorem routeAfter_append (z : Nat) (m : Option Nat) (xs ys : List Action) :
    routeAfter z m (xs ++ ys) = routeAfter z (routeAfter z m xs) ys := List.foldl_append

/-- A list's effect on a mask flag is that of its first part and then of its second. -/
theorem maskAfter_append (m : Nat) (on : Bool) (xs ys : List Action) :
    maskAfter m on (xs ++ ys) = maskAfter m (maskAfter m on xs) ys := List.foldl_append

/-- A list's effect on a line is that of its first part and then of its second. -/
theorem lineAfter_append (n : Nat) (x : LineState) (xs ys : List Action) :
    lineAfter n x (xs ++ ys) = lineAfter n (lineAfter n x xs) ys := List.foldl_append

/-- A list's effect on a point is that of its first part and then of its second. -/
theorem pointAfter_append (st : Store) (p : Nat) (q : Point) (xs ys : List Action) :
    pointAfter st p q (xs ++ ys) = pointAfter st p (pointAfter st p q xs) ys := List.foldl_append

/-- A LEVEL with fade time 0 leaves every membership as it is (R50). -/
@[simp] theorem pointAfter_membership (st : Store) (p : Nat) (q : Point) (acts : List Action) :
    (pointAfter st p q acts).membership = q.membership := by
  induction acts generalizing q with
  | nil => rfl
  | cons a as ih =>
    refine (ih _).trans ?_
    cases a <;> dsimp only
    split <;> rfl

/-- Actions handed over in index order: those of the first part, and then those of the second with the indexes that follow. -/
theorem handActions_append (owner : Option Nat) (c k : Nat) (xs ys : List Action) (s : State) :
    handActions owner c k (xs ++ ys) s = handActions owner c (k + xs.length) ys (handActions owner c k xs s) := by
  induction xs generalizing k s with
  | nil => rfl
  | cons x xs ih =>
    simp only [List.cons_append, handActions, List.length_cons]
    rw [ih, Nat.add_assoc, Nat.add_comm 1]

/-- Points in no slot leave none. -/
theorem State.leaveAll_of_free (ps : List Nat) (s : State) (h : ∀ p ∈ ps, (s.point p).membership = none) : s.leaveAll ps = s := by
  unfold State.leaveAll
  induction ps with
  | nil => rfl
  | cons p ps ih =>
    have hp : s.leave p = s := by
      unfold State.leave
      rw [h p List.mem_cons_self]
    rw [List.foldl_cons, hp]
    exact ih fun q hq => h q (List.mem_cons_of_mem p hq)

/-! ## Freeing reports (R53, R54) -/

@[simp] theorem Run.afterReports_zero (r : Run) : r.afterReports 0 = some r := rfl

/-- A run that a report leaves in the list is the same cue's. -/
theorem Run.afterReports_cue (n : Nat) (r x : Run) (h : r.afterReports n = some x) : x.cue = r.cue := by
  unfold Run.afterReports at h
  split at h
  · cases h; rfl
  · split at h
    · cases h; rfl
    · split at h
      · cases h; rfl
      · split at h
        · cases h
        · cases h; rfl

/-- One report to a run: the slots it owns, its follow at cue end, and its completion (R91 to R93). -/
theorem Run.afterReports_one (r : Run) : r.afterReports 1 = if r.slotFreed.isDone then none else some r.slotFreed := by
  obtain ⟨cue, origin, state, preWait, follow, followState, followRemaining, slots, snapped⟩ := r
  unfold Run.afterReports Run.slotFreed Run.isDone
  rcases slots with _ | _ | n
  · cases followState <;> cases state <;> cases follow <;> simp [Follow.value]
  · cases followState <;> cases state <;> cases follow <;> simp [Follow.value]
  · cases followState <;> cases state <;> simp

/-- A report changes the run of its cue alone: in a list with no cue twice, that run is `afterReports 1` and every other stands as
it was. -/
theorem State.runs_freeingReport (s : State) (c : Nat) (h : (s.runner.runs.map (·.cue)).Nodup) :
    (s.freeingReport c).runner.runs = s.runner.runs.filterMap fun r => if r.cue = c then r.afterReports 1 else some r := by
  have hf : ∀ r : Run, r.slotFreed.cue = r.cue := by intro r; unfold Run.slotFreed; dsimp only; split <;> rfl
  have key : ∀ rs : List Run, (rs.map (·.cue)).Nodup →
      (match (rs.map fun r => if r.cue = c then r.slotFreed else r).find? (fun r => r.cue == c) with
        | some r => if r.isDone then (rs.map fun r => if r.cue = c then r.slotFreed else r).filter (fun r => r.cue != c)
            else rs.map fun r => if r.cue = c then r.slotFreed else r
        | none => rs.map fun r => if r.cue = c then r.slotFreed else r) =
      rs.filterMap fun r => if r.cue = c then r.afterReports 1 else some r := by
    intro rs
    induction rs with
    | nil => intro _; rfl
    | cons r rs ih =>
      intro hn
      rw [List.map_cons, List.nodup_cons] at hn
      by_cases hc : r.cue = c
      · subst hc
        have hne : ∀ x ∈ rs, x.cue ≠ r.cue := fun x hx e => hn.1 (List.mem_map.mpr ⟨x, hx, e⟩)
        have hm : rs.map (fun x => if x.cue = r.cue then x.slotFreed else x) = rs :=
          (List.map_congr_left fun x hx => if_neg (hne x hx)).trans (List.map_id _)
        have hfm : rs.filterMap (fun x => if x.cue = r.cue then x.afterReports 1 else some x) = rs :=
          (List.filterMap_congr fun x hx => if_neg (hne x hx)).trans List.filterMap_some
        have hfi : rs.filter (fun x => x.cue != r.cue) = rs := by
          rw [List.filter_eq_self]; intro x hx; simpa using hne x hx
        rw [List.map_cons, hm, List.filterMap_cons, hfm, if_pos rfl, if_pos rfl, Run.afterReports_one]
        simp only [List.find?_cons, hf, beq_self_eq_true]
        by_cases hd : r.slotFreed.isDone
        · simp [hd, hf, hfi]
        · simp [hd]
      · have ih := ih hn.2
        have hb : (r.cue == c) = false := by simpa using hc
        simp only [List.map_cons, if_neg hc, List.filterMap_cons, List.find?_cons, hb]
        rw [← ih]
        cases (rs.map fun r => if r.cue = c then r.slotFreed else r).find? fun r => r.cue == c with
        | none => rfl
        | some x =>
          dsimp only
          split
          · rw [List.filter_cons_of_pos (by simpa using hc)]
          · rfl
  rw [← key _ h]
  unfold State.freeingReport State.checkCompletion State.run? State.onRun
  dsimp only
  cases (s.runner.runs.map fun r => if r.cue = c then r.slotFreed else r).find? fun r => r.cue == c with
  | none => rfl
  | some x => dsimp only; split <;> rfl

/-- A point that leaves a slot leaves the slot its other members, FREE if there are none; a slot it is not in stands as it was
(R46, R51 to R53). -/
theorem State.slot_leave (s : State) (p k j : Nat) (f : FadeSlot) (hm : (s.point p).membership = some k) (hk : s.slot k = some f) :
    (s.leave p).slot j = if j = k then f.without [p] else s.slot j := by
  have hb : k < Config.slots := by
    by_contra hn
    have : s.slot k = none := Table.getD_of_le _ _ _ (Nat.le_of_not_lt hn)
    rw [this] at hk; cases hk
  have hfilter : (f.members.filter fun m => decide (m.point ∉ [p])) = f.members.filter fun m => m.point != p :=
    List.filter_congr fun m _ => by by_cases e : m.point = p <;> simp [e]
  have hempty : (f.members.filter fun m => m.point != p).isEmpty = decide (∀ m ∈ f.members, m.point ∈ [p]) := by
    rw [Bool.eq_iff_iff]; simp
  have hs : ∀ o t, (State.reportFreed o t).slot j = t.slot j := by
    intro o t; unfold State.slot; rw [State.reportFreed_slots]
  have hset : ∀ x, ((s.setMembership p none).setSlot k x).slot j = if j = k then x else s.slot j := by
    intro x
    rw [State.slot_setSlot]
    by_cases e : j = k
    · subst e; simp [hb]
    · simp [e]; rfl
  unfold State.leave
  rw [hm]
  dsimp only
  rw [hk]
  dsimp only
  rw [hempty]
  unfold FadeSlot.without
  by_cases h : ∀ m ∈ f.members, m.point ∈ [p]
  · rw [if_pos (decide_eq_true h), if_pos h, hs, hset]
  · rw [if_neg (by simpa using h), if_neg h, hfilter, hset]

/-! ## Follows and beats (R94, R96) -/

/-- The cue that the expiry of a follow in progress GOes: the next cue after its run's, where that is standby (R94). -/
theorem State.expireFollow_target (s : State) (c : Nat) (r : Run) (h : s.run? c = some r) (hf : r.followRuns = true) :
    (s.expireFollow c).2 = if s.store.nextAfter c = s.runner.standby then s.runner.standby else none := by
  unfold State.expireFollow State.standbyCue
  rw [h]
  simp only [hf, if_true]
  cases hs : s.runner.standby with
  | none => simp
  | some x =>
    simp only [Option.bind_some]
    cases hc : s.store.cue? x with
    | none =>
      rw [if_neg]
      intro hn
      obtain ⟨_, rec, hm, hk⟩ := Store.nextAfter_above _ _ _ hn
      exact absurd (List.find?_eq_none.mp hc rec hm) (by simp [hk])
    | some rec =>
      have := Store.cue?_number _ _ _ hc
      subst this
      simp only
      split <;> rfl

@[simp] theorem BeatTakes_nil (gone : List Nat) (s t : State) : BeatTakes [] gone s t ↔ s = t := Iff.rfl

/-! ## Commands in order -/

@[simp] theorem Takes_nil (s t : State) : Takes [] s t ↔ s = t := Iff.rfl

@[simp] theorem Takes_cons (i : Instr) (is : List Instr) (s t : State) :
    Takes (i :: is) s t ↔ ∃ u, exec i s = .next u ∧ Takes is u t := Iff.rfl

/-- Commands in order are those of the first part and then those of the second. -/
theorem Takes_append (is js : List Instr) (s t : State) : Takes (is ++ js) s t ↔ ∃ u, Takes is s u ∧ Takes js u t := by
  induction is generalizing s with
  | nil => simp
  | cons i is ih =>
    simp only [List.cons_append, Takes_cons, ih]
    constructor
    · rintro ⟨u, hu, v, hv, hj⟩
      exact ⟨v, ⟨u, hu, hv⟩, hj⟩
    · rintro ⟨v, ⟨u, hu, hv⟩, hj⟩
      exact ⟨u, hu, v, hv, hj⟩

end Sys2Proof.Machine
end

