-- ==== Sys2Proof/Laws/PerInstr.lean ====
section
/-! SUPPORT. One lemma for each command of the family `Framed`: what the lane frame of a request carries. -/

namespace Sys2Proof.Laws.Framed

/-- A request's frame carries a request code of 10.5, on a lane of the FULL role every such code is permitted, and on Lane P
one is permitted exactly when any lane may send it; an event of the engine is in no frame. -/
def Statement (i : Instr) : Prop :=
  ∀ l f, requestFrame i = some (l, f) →
    isRequestCode f.code = true ∧ (l ≠ .p → rolePermits l f.code = true) ∧
      (rolePermits .p f.code = anyLaneCodes.contains f.code.toNat)

/-- What a request code permits, from the code alone. -/
theorem of_code (i : Instr) (k : Lane) (g : Frame) (hi : requestFrame i = some (k, g)) (hc : isRequestCode g.code = true) :
    Statement i := by
  intro l f h
  rw [hi] at h
  cases h
  refine ⟨hc, fun hl => ?_, rfl⟩
  cases k
  · exact hc
  · exact hc
  · exact absurd rfl hl

/-- An event of the engine is in no frame. -/
theorem of_event (i : Instr) (hi : requestFrame i = none) : Statement i := by
  intro l f h
  rw [hi] at h
  cases h

theorem powerOn : Statement .powerOn := of_event _ rfl

theorem resetPin : Statement .resetPin := of_event _ rfl

theorem goodFrame (lane : Lane) (frame : Frame) : Statement (.goodFrame lane frame) := of_event _ rfl

theorem checkError (lane : Lane) (frame : Frame) (received : Check) : Statement (.checkError lane frame received) := of_event _ rfl

theorem framingError (lane : Lane) : Statement (.framingError lane) := of_event _ rfl

theorem frameTruncated (lane : Lane) (cause : TruncatedCause) : Statement (.frameTruncated lane cause) := of_event _ rfl

theorem frameGap (lane : Lane) : Statement (.frameGap lane) := of_event _ rfl

theorem replySent (lane : Lane) : Statement (.replySent lane) := of_event _ rfl

theorem laneReset (lane : Lane) : Statement (.laneReset lane) := of_event _ rfl

theorem levelSet (lane : Lane) (tag : Byte) (target : Target) (level : Int) : Statement (.levelSet lane tag target level) := of_code _ _ _ rfl rfl

theorem trimNudge (lane : Lane) (tag : Byte) (target : Target) (delta : Int) : Statement (.trimNudge lane tag target delta) := of_code _ _ _ rfl rfl

theorem trimSet (lane : Lane) (tag : Byte) (target : Target) (value : Int) : Statement (.trimSet lane tag target value) := of_code _ _ _ rfl rfl

theorem trimClear (lane : Lane) (tag : Byte) (target : Target) : Statement (.trimClear lane tag target) := of_code _ _ _ rfl rfl

theorem levelRead (lane : Lane) (tag : Byte) (first count : Nat) : Statement (.levelRead lane tag first count) := of_code _ _ _ rfl rfl

theorem inputSwap (lane : Lane) (tag : Byte) (first second : Nat) : Statement (.inputSwap lane tag first second) := of_code _ _ _ rfl rfl

theorem inputRestore (lane : Lane) (tag : Byte) : Statement (.inputRestore lane tag) := of_code _ _ _ rfl rfl

theorem inputMapRead (lane : Lane) (tag : Byte) : Statement (.inputMapRead lane tag) := of_code _ _ _ rfl rfl

theorem mixMask (lane : Lane) (tag : Byte) (mix state : Nat) : Statement (.mixMask lane tag mix state) := of_code _ _ _ rfl rfl

theorem audioStatus (lane : Lane) (tag : Byte) : Statement (.audioStatus lane tag) := of_code _ _ _ rfl rfl

theorem fadeStatus (lane : Lane) (tag : Byte) (first count : Nat) : Statement (.fadeStatus lane tag first count) := of_code _ _ _ rfl rfl

theorem cueList (lane : Lane) (tag : Byte) (fromNumber count : Nat) : Statement (.cueList lane tag fromNumber count) := of_code _ _ _ rfl rfl

theorem cueRead (lane : Lane) (tag : Byte) (cue firstAction : Nat) : Statement (.cueRead lane tag cue firstAction) := of_code _ _ _ rfl rfl

theorem groupRead (lane : Lane) (tag : Byte) (id : Nat) : Statement (.groupRead lane tag id) := of_code _ _ _ rfl rfl

theorem groupList (lane : Lane) (tag : Byte) : Statement (.groupList lane tag) := of_code _ _ _ rfl rfl

theorem setupRead (lane : Lane) (tag : Byte) (kind zone : Nat) : Statement (.setupRead lane tag kind zone) := of_code _ _ _ rfl rfl

theorem go (lane : Lane) (tag : Byte) (expected : Option Nat) : Statement (.go lane tag expected) := by
  cases expected <;> exact of_code _ _ _ rfl rfl

theorem preWaitEnd (cue : Nat) : Statement (.preWaitEnd cue) := of_event _ rfl

theorem fadeAdvance : Statement .fadeAdvance := of_event _ rfl

theorem fadeCompletion (slot : Nat) : Statement (.fadeCompletion slot) := of_event _ rfl

theorem followExpiry (cue : Nat) : Statement (.followExpiry cue) := of_event _ rfl

theorem beat : Statement .beat := of_event _ rfl

theorem standbySet (lane : Lane) (tag : Byte) (cue : Nat) : Statement (.standbySet lane tag cue) := of_code _ _ _ rfl rfl

theorem panic (lane : Lane) (tag : Byte) : Statement (.panic lane tag) := of_code _ _ _ rfl rfl

theorem runStatus (lane : Lane) (tag : Byte) (first : Nat) : Statement (.runStatus lane tag first) := of_code _ _ _ rfl rfl

theorem triggerStatus (lane : Lane) (tag : Byte) : Statement (.triggerStatus lane tag) := of_code _ _ _ rfl rfl

theorem pulseEnd (line : Nat) : Statement (.pulseEnd line) := of_event _ rfl

theorem repeatPhaseEnd (line : Nat) : Statement (.repeatPhaseEnd line) := of_event _ rfl

theorem zoneRoute (lane : Lane) (tag : Byte) (zone mix : Nat) : Statement (.zoneRoute lane tag zone mix) := of_code _ _ _ rfl rfl

theorem zoneStatus (lane : Lane) (tag : Byte) (first count : Nat) : Statement (.zoneStatus lane tag first count) := of_code _ _ _ rfl rfl

theorem callOpen (lane : Lane) (tag : Byte) (cls : Nat) (zones : ZoneSet) (level : Int) : Statement (.callOpen lane tag cls zones level) := of_code _ _ _ rfl rfl

theorem callClose (lane : Lane) (tag : Byte) : Statement (.callClose lane tag) := of_code _ _ _ rfl rfl

theorem callTimeout : Statement .callTimeout := of_event _ rfl

theorem callStatus (lane : Lane) (tag : Byte) : Statement (.callStatus lane tag) := of_code _ _ _ rfl rfl

theorem duckRampAdvance : Statement .duckRampAdvance := of_event _ rfl

theorem duckRampEnd (zone : Nat) : Statement (.duckRampEnd zone) := of_event _ rfl

theorem audioFrame (i0 i1 : List Int) : Statement (.audioFrame i0 i1) := of_event _ rfl

theorem windowEnd : Statement .windowEnd := of_event _ rfl

theorem clockLoss : Statement .clockLoss := of_event _ rfl

theorem clockReturn : Statement .clockReturn := of_event _ rfl

theorem audioRestored : Statement .audioRestored := of_event _ rfl

theorem alarmPoll (lane : Lane) (tag : Byte) (first : Nat) : Statement (.alarmPoll lane tag first) := of_code _ _ _ rfl rfl

theorem alarmsAck (lane : Lane) (tag : Byte) (zones : ZoneSet) : Statement (.alarmsAck lane tag zones) := of_code _ _ _ rfl rfl

theorem arm (lane : Lane) (tag : Byte) (mode delay : Nat) : Statement (.arm lane tag mode delay) := of_code _ _ _ rfl rfl

theorem delayExpiry : Statement .delayExpiry := of_event _ rfl

theorem intervalBegin (lane : Lane) (tag : Byte) : Statement (.intervalBegin lane tag) := of_code _ _ _ rfl rfl

theorem intervalEnd (lane : Lane) (tag : Byte) : Statement (.intervalEnd lane tag) := of_code _ _ _ rfl rfl

theorem finish (lane : Lane) (tag : Byte) : Statement (.finish lane tag) := of_code _ _ _ rfl rfl

theorem recordClear (lane : Lane) (tag : Byte) : Statement (.recordClear lane tag) := of_code _ _ _ rfl rfl

theorem recordStatus (lane : Lane) (tag : Byte) : Statement (.recordStatus lane tag) := of_code _ _ _ rfl rfl

theorem readLog (lane : Lane) (tag : Byte) (fromSeq : Nat) : Statement (.readLog lane tag fromSeq) := of_code _ _ _ rfl rfl

theorem stageBegin (lane : Lane) (tag : Byte) (target : Nat) (header : StageHeader) (declared : Nat) : Statement (.stageBegin lane tag target header declared) := of_code _ _ _ rfl rfl

theorem stageAdd (lane : Lane) (tag : Byte) (items : List Byte) : Statement (.stageAdd lane tag items) := of_code _ _ _ rfl rfl

theorem stageVerify (lane : Lane) (tag : Byte) (firstItem : Nat) : Statement (.stageVerify lane tag firstItem) := of_code _ _ _ rfl rfl

theorem stageCommit (lane : Lane) (tag : Byte) (kind target declared expected : Nat) : Statement (.stageCommit lane tag kind target declared expected) := of_code _ _ _ rfl rfl

theorem notices (lane : Lane) (tag : Byte) : Statement (.notices lane tag) := of_code _ _ _ rfl rfl

theorem laneStatus (lane : Lane) (tag : Byte) (named : Nat) : Statement (.laneStatus lane tag named) := of_code _ _ _ rfl rfl

theorem engineReset (lane : Lane) (tag : Byte) : Statement (.engineReset lane tag) := of_code _ _ _ rfl rfl

theorem resetCauses (lane : Lane) (tag : Byte) : Statement (.resetCauses lane tag) := of_code _ _ _ rfl rfl

theorem causesClear (lane : Lane) (tag : Byte) : Statement (.causesClear lane tag) := of_code _ _ _ rfl rfl

theorem identity (lane : Lane) (tag : Byte) : Statement (.identity lane tag) := of_code _ _ _ rfl rfl

theorem lineReturnedHigh (lane : Lane) : Statement (.lineReturnedHigh lane) := of_event _ rfl

theorem performanceClockMillisecond : Statement .performanceClockMillisecond := of_event _ rfl

end Sys2Proof.Laws.Framed
end

