-- ==== Sys2Proof/Tests/Slice0.lean ====
section
/-! SUPPORT. Tests of the model: ill-formed commands refused, encodings and worked values of the manual, one step of each kind of
command on a small state, and for each obligation with hypotheses a state and operands that meet them. Expected values are the
manual's (the place is named at each test) or hand calculation from its rules. -/

namespace Sys2Proof.Tests
set_option Elab.async false
open Sys2Proof Sys2Proof.Machine

/-! ## Helpers -/

/-- The state after a command, or the state before one that stops. -/
def after (i : Instr) (s : State) : State := match exec i s with | .next t => t | .fault _ => s | .refused _ => s

/-- The reply's status code and body on a lane. -/
def answerOn (l : Lane) (s : State) : Option (Byte × List Byte) :=
  match (s.lanes.get l).reply with
  | some (_ :: n :: code :: rest) => some (code.data, (rest.take n.data.toNat).map fun c => c.data)
  | _ => none

/-- A cue with these actions, a pre-wait of 500 ms and no follow. -/
def cueOf (n : Nat) (acts : List Action) : Cue :=
  { number := n, label := [], preWait := 500, follow := .none, promptCallable := false, curtain := false, actions := acts,
    editCount := 1 }

/-- A run of the cue in PRE_WAIT. -/
def runOfCue (n : Nat) : Run :=
  { cue := n, origin := .lane .a, state := .preWait, preWait := 500, follow := .none, followState := .none,
    followRemaining := 0, slots := 0, snapped := 0 }

/-- The state after power-on with these cues, this standby and these runs. -/
def showOf (cues : List Cue) (standby : Option Nat) (runs : List Run) : State :=
  { State.reset with
    store := { State.reset.store with cues := cues }
    runner := { State.reset.runner with standby := standby, runs := runs } }

/-- The state with its record in this state. -/
def inState (p : PerfState) (s : State) : State := { s with record := { s.record with state := p } }

/-! ## Commands that cannot be sent are not well formed (R175, R180) -/

theorem test_wellFormed_frame : wellFormed (.goodFrame .a ⟨0, 0x51, List.replicate 251 0⟩) = false := by decide +kernel
theorem test_wellFormed_check : wellFormed (.checkError .a ⟨0, 0x51, []⟩ (frameCheck ⟨0, 0x51, []⟩)) = false := by decide +kernel
theorem test_wellFormed_length : wellFormed (.frameTruncated .a (.lengthOver 250)) = false := by decide +kernel
theorem test_wellFormed_one : wellFormed (.mixMask .a 0 256 1) = false := by decide +kernel
theorem test_wellFormed_two : wellFormed (.levelRead .a 0 65536 1) = false := by decide +kernel
theorem test_wellFormed_three : wellFormed (.cueRead .a 0 16777216 0) = false := by decide +kernel
theorem test_wellFormed_four : wellFormed (.readLog .a 0 4294967296) = false := by decide +kernel
theorem test_wellFormed_signed : wellFormed (.levelSet .a 0 ⟨1, 5⟩ 32768) = false := by decide +kernel
theorem test_wellFormed_target : wellFormed (.trimClear .a 0 ⟨256, 5⟩) = false := by decide +kernel
theorem test_wellFormed_expected : wellFormed (.go .a 0 (some 16777216)) = false := by decide +kernel
theorem test_wellFormed_cue : wellFormed (.preWaitEnd 0) = false ∧ wellFormed (.followExpiry 10000000) = false := by
  decide +kernel
theorem test_wellFormed_slot : wellFormed (.fadeCompletion 32) = false := by decide +kernel
theorem test_wellFormed_line : wellFormed (.pulseEnd 16) = false ∧ wellFormed (.repeatPhaseEnd 16) = false := by decide +kernel
theorem test_wellFormed_zone : wellFormed (.duckRampEnd 32) = false := by decide +kernel
theorem test_wellFormed_port : wellFormed (.audioFrame (List.replicate 23 0) (List.replicate 24 0)) = false := by decide +kernel
theorem test_wellFormed_sample :
    wellFormed (.audioFrame (List.replicate 24 8388608) (List.replicate 24 0)) = false := by decide +kernel
theorem test_wellFormed_label :
    wellFormed (.stageBegin .a 0 1000 (.cue (List.replicate 236 65) 0 1 0 0 0) 0) = false := by decide +kernel
theorem test_wellFormed_polarities : wellFormed (.stageBegin .a 0 0 (.triggerSetup [1]) 0) = false := by decide +kernel
theorem test_wellFormed_unknown : wellFormed (.stageBegin .a 0 0 (.unknown 7 []) 0) = false := by decide +kernel
theorem test_wellFormed_declared : wellFormed (.stageBegin .a 0 0 (.group []) 256) = false := by decide +kernel
theorem test_wellFormed_items : wellFormed (.stageAdd .a 0 (List.replicate 251 0)) = false := by decide +kernel

/-! ## Encodings -/

/-- The table gives no row bits, so no word spells a command. -/
theorem test_decodeTableWord : decodeTableWord 32 0xFFFFFFFF = none := rfl

/-- R176: the check of the characters 49 to 57 is 29B1 hexadecimal. -/
theorem test_crc : crc [49, 50, 51, 52, 53, 54, 55, 56, 57] = 0x29B1#16 := by decide +kernel

/-- 10.8, worked example: GO expecting 27,000 with tag 5 is code 30 with body 00 69 78. -/
theorem test_go_frame : requestFrame (.go .b 5 (some 27000)) = some (.b, ⟨5, 0x30, [0x00, 0x69, 0x78]⟩) := by decide +kernel

/-- The same frame is eight characters and reads back as the GO. -/
theorem test_go_reads :
    (frameChars ⟨5, 0x30, [0x00, 0x69, 0x78]⟩).length = 8 ∧
      parseRequest .b ⟨5, 0x30, [0x00, 0x69, 0x78]⟩ = some (.go .b 5 (some 27000)) := by decide +kernel

/-- R180: a level of −60 is FFC4 in 2 characters; LEVEL SET of GROUP 7 is kind 2, number 0007. -/
theorem test_levelSet_frame :
    requestFrame (.levelSet .a 1 ⟨2, 7⟩ (-60)) = some (.a, ⟨1, 0x10, [2, 0, 7, 0xFF, 0xC4]⟩) := by decide +kernel

/-- R180: zone z of a zone set is bit z of the 32-bit value, most significant character first. -/
theorem test_callOpen_frame :
    requestFrame (.callOpen .p 0 1 0x00000209#32 0) = some (.p, ⟨0, 0x3A, [1, 0, 0, 2, 9, 0, 0]⟩) := by decide +kernel

/-- R163, 10.7: an action item is 12 characters; ROUTE of zone 3 to NONE carries 255. -/
theorem test_action_item :
    (Action.route 3 none).chars.length = 12 ∧
      (match readAction (Action.route 3 none).chars with | .ok a => decide (a = Action.route 3 none) | .error _ => false) = true := by
  decide +kernel

/-- R174: the header character 05 of a frame is a start bit of 0, 1010 0000 from the least significant bit, its mark bit and a stop
bit of 1; with a stop bit of 0 it is a framing error. -/
theorem test_character_bits :
    (Character.mk true 5).bits = [false, true, false, true, false, false, false, false, false, true, true] ∧
      receiveBits (some [5, 3]) [false, true, false, true, false, false, false, false, false, true, false] =
        (none, .framingError) := by decide +kernel

/-- R174: the first character of a reply alone has its mark bit set, and an idle transmit line is high. -/
theorem test_reply_marks :
    (((after (.panic .p 5) State.reset).lanes.get .p).reply.map fun cs => cs.map fun c => c.mark) =
        some (true :: List.replicate 8 false) ∧ (State.reset.lanes.get .p).transmits 0 = true := by decide +kernel

/-- A character over 250 where the length stands abandons the frame (R175). -/
theorem test_receiver_length : receiveChar (some [5]) ⟨false, 251⟩ = (none, .truncated (.lengthOver 251)) := by decide +kernel

/-- A mark character abandons the frame in assembly and begins a new one (R175). -/
theorem test_receiver_mark : receiveChar (some [5, 3]) ⟨true, 9⟩ = (some [9], .truncated (.mark 9)) := by decide +kernel

/-! ## Values the manual gives -/

/-- R5's table. -/
theorem test_gain :
    ([120, 60, 0, -30, -60, -100, -118] : List Int).map gain =
      [4174456, 2092184, 1048576, 742335, 525533, 331589, 269526] := by decide +kernel

/-- R5's table, the lower half. -/
theorem test_gain_low :
    ([-140, -200, -400, -600, -800, -898, -899, -900] : List Int).map gain =
      [209218, 104858, 10486, 1049, 105, 34, 34, 0] := by decide +kernel

/-- R7's four values. -/
theorem test_scale :
    scale 1 524288 = 1 ∧ scale (-1) 524288 = 0 ∧ scale 1000000 269526 = 257040 ∧ scale (-1000000) 269526 = -257040 := by
  decide +kernel

/-- 2.3, worked example: the term of source 20 and the mix signal of mix 7. -/
theorem test_mix_terms : scale (-3000000) 525533 = -1503562 ∧ scale (-501187) 2092184 = -999999 := by decide +kernel

/-- 2.3, worked example: saturation at the master, and the same sum with the master at −60. -/
theorem test_mix_saturates :
    sat24 (scale (-9417312) 1048576) = -8388608 ∧ sat24 (scale (-9417312) 525533) = -4719837 := by decide +kernel

/-- 3.5, worked example: slot 6 LATE from −60 to OFF over 10,000 ms at 2000, and slot 2 LINEAR from −200 to −60 at 1500 of 4000. -/
theorem test_fade_law :
    progress 2000 10000 = 13107 ∧ Curve.late.shape 13107 = 2621 ∧ fadeBase (-60) (-900) 2621 = -93 ∧
      fadeBase (-200) (-60) (Curve.linear.shape (progress 1500 4000)) = -148 := by decide +kernel

/-- 6.3, worked example: the attack at 60 and 100 of 150, the release at 250 of 500, the second attack at 75 of 150. -/
theorem test_ramp :
    rampDuck 0 200 60 150 = 80 ∧ rampDuck 0 200 100 150 = 133 ∧ rampDuck 133 0 250 500 = 66 ∧ rampDuck 66 200 75 150 = 133 := by
  decide +kernel

/-- R128's table, in part. -/
theorem test_peakLevel :
    [8388608, 4194304, 66000, 11850, 11849, 8389, 8388, 269, 268, 0].map peakLevel =
      [0, -61, -421, -570, -571, -600, -601, -899, -900, -900] := by decide +kernel

/-- 6.2, worked example: the ducked level of zone 5, its two terms and their sum. -/
theorem test_zone_terms :
    duckedLevel (-60) 80 = -140 ∧ scale 1000000 (gain (duckedLevel (-60) 80)) = 199526 ∧
      sat24 (199526 + scale 500000 (gain 0)) = 699526 := by decide +kernel

/-- R3: base OFF is OFF whatever the trim; a sum above +120 is +120. -/
theorem test_effective : effective (-900) 40 = -900 ∧ effective (-100) (-18) = -118 ∧ effective 60 120 = 120 := by decide +kernel

/-- 5.8, worked example: a REPEAT of period 25 turns from 12 ms active to 13 ms idle, and ends idle. -/
theorem test_repeat_turn :
    (LineState.repeating true 1 3 25).phaseEnd = .repeating false 13 3 25 ∧
      (LineState.repeating false 1 3 25).phaseEnd = .repeating true 12 2 25 ∧
      (LineState.repeating false 1 1 25).phaseEnd = .idle := by decide +kernel

/-- 11.10: the log entry of a SHOW_STOP call of 32 zones, arrival 6, from Lane P, at 5,110,000 ms. -/
theorem test_log_entry :
    fieldAt 27 (Detail.callLive .showStop 32 6).kindNumber + 5110000 = 1213069552 ∧
      (Detail.callLive .showStop 32 6).value = 52428806 := by decide +kernel

/-! ## One step of a command -/

/-- R177, R175: a receiver fault counts once and stays at 255. -/
theorem test_counts :
    ((after (.frameGap .b) State.reset).lanes.get .b).truncated = 1 ∧
      ((after (.frameGap .b) (State.reset.onLane .b fun x => { x with truncated := 255 })).lanes.get .b).truncated = 255 := by
  decide +kernel

/-- R174: a framing error counts when the line returns high, not before. -/
theorem test_framing :
    ((after (.framingError .a) State.reset).lanes.get .a).framing = 0 ∧
      ((after (.lineReturnedHigh .a) (after (.framingError .a) State.reset)).lanes.get .a).framing = 1 := by decide +kernel

/-- R178 and 10.8, worked example: a frame that finds the slot occupied is dropped. -/
theorem test_dropped :
    ((after (.goodFrame .b ⟨7, 0x33, [0]⟩) (State.reset.onLane .b fun x => { x with slot := some ⟨6, 0x30, []⟩ })).lanes.get
      .b).dropped = 1 := by decide +kernel

/-- R178: a frame whose code is no request code is answered UNKNOWN_REQUEST. -/
theorem test_unknown : answerOn .a (after (.goodFrame .a ⟨1, 0x00, []⟩) State.reset) = some (15, []) := by decide +kernel

/-- R178, R181: LEVEL SET on Lane P is refused by the lane. -/
theorem test_role : answerOn .p (after (.goodFrame .p ⟨1, 0x10, [1, 0, 5, 0, 0]⟩) State.reset) = some (1, []) := by
  decide +kernel

/-- R183: after power-on NOTICES returns {RESET} and empties the set. -/
theorem test_notices :
    answerOn .p (after (.notices .p 1) State.reset) = some (0, [0x40]) ∧
      ((after (.notices .p 1) State.reset).lanes.get .p).attention = false := by decide +kernel

/-- R187: vendor 1207, part 2440, revision 1, lane B, role FULL. -/
theorem test_identity : answerOn .b (after (.identity .b 0) State.reset) = some (0, [4, 0xB7, 9, 0x88, 0, 1, 2, 1]) := by
  decide +kernel

/-- R182: a break empties the lane and is counted; a second edge of the same break is not. -/
theorem test_break :
    ((after (.laneReset .a) State.reset).lanes.get .a).laneResets = 1 ∧
      ((after (.laneReset .a) (after (.laneReset .a) State.reset)).lanes.get .a).laneResets = 1 := by decide +kernel

/-- R12, R2: LEVEL SET of POINT 1003 to −950 writes −900 and sets the clamped flag; one point. -/
theorem test_levelSet :
    ((after (.levelSet .b 0 ⟨1, 1003⟩ (-950)) State.reset).point 1003).base = -900 ∧
      answerOn .b (after (.levelSet .b 0 ⟨1, 1003⟩ (-950)) State.reset) =
        some (0, [1, 0, 1, 0xFC, 0x7C, 0, 0, 0xFC, 0x7C, 255]) := by decide +kernel

/-- 1.5, worked example: a nudge of +100 on a trim of +40 is clamped to +120. -/
theorem test_trimNudge :
    ((after (.trimNudge .a 0 ⟨1, 212⟩ 100) (State.reset.onPoint 212 fun q => { q with trim := 40 })).point 212).trim = 120 := by
  decide +kernel

/-- R15, R16: a value below −600 is clamped; TRIM CLEAR writes 0. -/
theorem test_trimSet :
    ((after (.trimSet .a 0 ⟨1, 5⟩ (-700)) State.reset).point 5).trim = -600 ∧
      ((after (.trimClear .a 0 ⟨1, 5⟩) (State.reset.onPoint 5 fun q => { q with trim := 7 })).point 5).trim = 0 := by
  decide +kernel

/-- 2.2, worked example: INPUT SWAP (12, 31) on the identity. -/
theorem test_inputSwap :
    answerOn .a (after (.inputSwap .a 0 12 31) State.reset) = some (0, [12, 31, 31, 12]) := by decide +kernel

/-- 2.2, worked example: INPUT RESTORE after two swaps carries 3. -/
theorem test_inputRestore :
    answerOn .a (after (.inputRestore .a 0) ((State.reset.swapInputs 12 31).swapInputs 31 35)) = some (0, [3]) := by
  decide +kernel

/-- R32: the mix is checked before the state. -/
theorem test_mixMask :
    answerOn .a (after (.mixMask .a 0 24 9) State.reset) = some (5, []) ∧
      answerOn .a (after (.mixMask .a 0 23 9) State.reset) = some (16, []) ∧
      (after (.mixMask .a 0 23 1) State.reset).masks.getD 23 false = true := by decide +kernel

/-- R34: the fault count and the AUDIO_FAULT entry. -/
theorem test_clockLoss :
    (after .clockLoss { inState .running State.reset with audio := { State.reset.audio with clock := .good } }).record.log =
      [⟨0, 0, .engine, none, none, .audioFault 1⟩] := by decide +kernel

/-- R85 and 8.8, worked example: a curtain GO starts the performance and stores PERFORMANCE_START and GO at clock 0. -/
theorem test_go_starts :
    let s := showOf [{ cueOf 1000 [] with curtain := true }, cueOf 1500 []] (some 1000) []
    let t := after (.go .a 0 (some 1000)) { s with record := { s.record with state := .armed, startMode := some .curtain } }
    t.record.log = [⟨0, 0, .lane .a, some 1000, none, .performanceStart .curtain⟩,
      ⟨1, 0, .lane .a, some 1000, none, .go (some 1500)⟩] ∧ t.runner.standby = some 1500 := by decide +kernel

/-- 8.8, worked example: a GO expecting the cue already taken is STALE and carries standby. -/
theorem test_go_stale :
    answerOn .b (after (.go .b 0 (some 1000)) (showOf [cueOf 1000 [], cueOf 1500 []] (some 1500) [])) =
      some (2, [0, 5, 0xDC]) := by decide +kernel

/-- R90, R93: an AFTER_END follow of a run that owns no slot begins TIMING at the dispatch. -/
theorem test_preWaitEnd :
    (after (.preWaitEnd 1000) (showOf [cueOf 1000 []] none [{ runOfCue 1000 with follow := .afterEnd 1000 }])).runner.runs =
      [{ runOfCue 1000 with
        state := .active, preWait := 0, follow := .afterEnd 1000, followState := .timing, followRemaining := 1000 }] := by
  decide +kernel

/-- 3.3: a LEVEL with a fade time takes the lowest FREE slot with its start level; with fade time 0 it writes at once. -/
theorem test_move :
    (after (.preWaitEnd 1000) (showOf [cueOf 1000 [.level (.point 5) (-40) 5000 .linear false]] none [runOfCue 1000])).slot 0 =
        some ⟨some 1000, 0, -40, 5000, .linear, 0, [⟨5, -900⟩]⟩ ∧
      ((after (.preWaitEnd 1000) (showOf [cueOf 1000 [.level (.point 5) (-40) 0 .linear false]] none
        [runOfCue 1000])).point 5).base = -40 := by decide +kernel

/-- R41, R44: the last millisecond of a move writes its target and frees its slot. -/
theorem test_fadeAdvance :
    let s := (State.reset.setSlot 3 (some ⟨none, 0, -40, 10, .late, 9, [⟨5, -100⟩]⟩)).setMembership 5 (some 3)
    (after .fadeAdvance s).slot 3 = none ∧ (after .fadeAdvance s).point 5 = ⟨-40, 0, none⟩ := by decide +kernel

/-- 5.4, worked example: a follow whose target is not standby is void, and its run completes. -/
theorem test_follow_void :
    let r := { runOfCue 27000 with state := .active, preWait := 0, followState := .timing, followRemaining := 1 }
    let t := after (.followExpiry 27000) (inState .running (showOf [cueOf 27000 [], cueOf 28000 []] none [r]))
    t.runner.runs = [] ∧ t.record.log = [⟨0, 0, .follow, some 27000, none, .followVoid (some 28000)⟩] := by decide +kernel

/-- R96: an edge less than 20 ms after a counted one is ignored; one 20 ms after is counted, from 65,535 to 0. -/
theorem test_beat :
    let s := { State.reset with
      timeBase := 119, runner := { State.reset.runner with lastBeat := some 100, beatCounter := 65535 } }
    (after .beat s).runner.beatCounter = 65535 ∧ (after .beat { s with timeBase := 120 }).runner.beatCounter = 0 := by
  decide +kernel

/-- 4.8, worked example: STANDBY SET (42.5) carries 43 before and 42.5 after. -/
theorem test_standbySet :
    answerOn .a (after (.standbySet .a 0 42500) (showOf [cueOf 42500 [], cueOf 43000 []] (some 43000) [])) =
      some (0, [0, 0xA7, 0xF8, 0, 0xA6, 4]) := by decide +kernel

/-- R98: PANIC carries the number of runs removed and standby. -/
theorem test_panic :
    answerOn .p (after (.panic .p 0) (showOf [cueOf 1000 []] (some 1000) [runOfCue 1000])) = some (0, [1, 0, 3, 0xE8]) := by
  decide +kernel

/-- R106: 255 is NONE, and a mix of 24 is out of range. -/
theorem test_zoneRoute :
    ((after (.zoneRoute .a 0 31 23) State.reset).zone 31).route = some 23 ∧
      answerOn .a (after (.zoneRoute .a 0 31 24) State.reset) = some (5, []) := by decide +kernel

/-- 6.6, worked example: Lane P's GENERAL call of zones 3 to 9 with the counter at 17 is live. -/
theorem test_callOpen :
    let s := { State.reset with calls := { State.reset.calls with arrival := 17 } }
    answerOn .p (after (.callOpen .p 0 1 0x3F8#32 0) s) = some (0, [0, 17, 1, 0, 0, 0]) ∧
      (after (.callOpen .p 0 1 0x3F8#32 0) s).zone 3 = ⟨none, 0, some ⟨.attack, 0, 200, 150, 0⟩, true⟩ := by decide +kernel

/-- 6.6, worked example: at the close of A 19, B 18 ARTIST is granted before P 20 GENERAL. -/
theorem test_callClose :
    let s := { State.reset with calls := ⟨some ⟨⟨.a, 19, .showStop, 0xFFFFFFFF#32, 60⟩, 78000, 42000⟩,
      [⟨.b, 18, .artist, 0x300000#32, -60⟩, ⟨.p, 20, .general, 0x1000#32, 0⟩], 21⟩ }
    (after (.callClose .a 0) s).calls =
      ⟨some ⟨⟨.b, 18, .artist, 0x300000#32, -60⟩, 120000, 0⟩, [⟨.p, 20, .general, 0x1000#32, 0⟩], 21⟩ := by decide +kernel

/-- R132, R134: the window that brings the count to the hold sets SILENT and stores its peak level and hold. -/
theorem test_windowEnd :
    let w : WatchZone := { setup := ⟨true, -600, 30, 3⟩, peak := 5000, quiet := 2 }
    let s := inState .running { State.reset with watch := ⟨State.reset.watch.zones.update 4 fun _ => w, 4800, false⟩ }
    ((after .windowEnd s).watchZone 4).silentAlarm = true ∧
      (after .windowEnd s).record.log = [⟨0, 0, .engine, none, some 4, .alarmSetSilent (-645) 3⟩] := by decide +kernel

/-- R127: a window cannot be cut short, and one with 4,799 frames ends at the next. -/
theorem test_window_length :
    let s := { State.reset with
      watch := { State.reset.watch with frames := 4799 }, audio := { State.reset.audio with clock := .good } }
    (after .windowEnd s).watch.frames = 4799 ∧ (after (.audioFrame [] []) s).watch.frames = 0 := by decide +kernel

/-- R135: an empty set is out of range; a set OVER is cleared and listed. -/
theorem test_alarmsAck :
    let s := State.reset.onWatchZone 7 fun w => { w with overAlarm := true }
    answerOn .a (after (.alarmsAck .a 0 0#32) s) = some (5, []) ∧
      answerOn .a (after (.alarmsAck .a 0 0x81#32) s) = some (0, [1, 7]) := by decide +kernel

/-- R142: ARM in DELAY with 0 starts at once; the reply says RUNNING, DELAY, 0 and WRAP. -/
theorem test_arm :
    answerOn .p (after (.arm .p 0 2 0) State.reset) = some (0, [3, 2, 0, 0, 0, 1]) ∧
      answerOn .p (after (.arm .p 0 2 3600001) State.reset) = some (5, []) := by decide +kernel

/-- R148: the length of an interval is its end less its begin. -/
theorem test_intervalEnd :
    let s := { State.reset with record := { State.reset.record with
      state := .interval, clock := 5000, intervals := [⟨1, 2000, none⟩] } }
    (after (.intervalEnd .a 0) s).record.log = [⟨0, 5000, .lane .a, none, none, .intervalEnd 1 3000⟩] := by decide +kernel

/-- R150: FINISH of an armed record stores nothing and is never started. -/
theorem test_finish :
    answerOn .a (after (.finish .a 0) (inState .armed State.reset)) = some (0, [0, 0, 0, 0, 0, 1]) := by decide +kernel

/-- R157: with nothing written READ LOG (0) carries no entries, the oldest 0, and next sequence 0. -/
theorem test_readLog :
    answerOn .p (after (.readLog .p 0 0) State.reset) =
      some (0, [1, 0] ++ be 4 0 ++ be 2 0 ++ be 4 0 ++ [0] ++ [0] ++ be 4 0) := by decide +kernel

/-- R161: a declared count of 0 is COMPLETE at once; a cue number of 0 is INVALID RANGE. -/
theorem test_stageBegin :
    ((after (.stageBegin .a 0 1000 .removeCue 0) State.reset).staging.a.map (·.status)) = some .complete ∧
      ((after (.stageBegin .a 0 0 .removeCue 0) State.reset).staging.a.map (·.status)) = some (.invalid .range none) := by
  decide +kernel

/-- R162: a target outside its range, as any but 0 is for a SHOW SETUP, gives expected edit count 0. -/
theorem test_stageBegin_expected :
    answerOn .a (after (.stageBegin .a 0 1 (.showSetup 1 120 150 500) 0) State.reset) = some (0, [4, 1, 0, 0]) ∧
      answerOn .a (after (.stageBegin .a 0 0 (.showSetup 1 120 150 500) 0) State.reset) = some (0, [3, 0, 0, 1]) := by
  decide +kernel

/-- 4.3 and R71, R73: the first cue committed to an empty stack is standby, with edit count 1. -/
theorem test_stageCommit :
    let m : Image := { status := .complete, header := .cue [65] 0 1 0 0 0, target := 1000, declared := 0, actions := [],
                       members := [], expected := 0, committed := false }
    let t := after (.stageCommit .a 0 1 1000 0 0) { State.reset with staging := ⟨some m, none⟩ }
    t.runner.standby = some 1000 ∧ t.store.cueEdit 1000 = 1 := by decide +kernel

/-- R185, R186: the reply of an ENGINE RESET carries the new count, and every notice set is {RESET}. -/
theorem test_engineReset :
    answerOn .a (after (.engineReset .a 0) State.reset) = some (0, [0, 1]) ∧
      ((after (.engineReset .a 0) State.reset).lanes.get .p).notices = { reset := true } := by decide +kernel

/-- R186: CAUSES CLEAR carries the record as it stood and clears it. -/
theorem test_causesClear :
    answerOn .b (after (.causesClear .b 0) State.reset) = some (0, [1, 0, 0, 0, 0, 0]) ∧
      (after (.causesClear .b 0) State.reset).causes = {} := by decide +kernel

/-- The model's tick: with nothing waiting a step raises the time base by one millisecond. -/
theorem test_tick : (match step State.reset with | .next t => t.timeBase | _ => 0) = 1 := by decide +kernel

/-! ## For each obligation with hypotheses, a state and operands that meet them, clause by clause -/

theorem witness_IdleStepIsOneMillisecond :
    State.reset.pending = [] ∧ (inState .running State.reset).record.state = .running ∧
      (inState .interval State.reset).record.state = .interval ∧ (inState .finished State.reset).record.state = .finished ∧
      State.reset.record.state = .clear ∧
      (let s := { State.reset with record := { State.reset.record with
          state := .armed, startMode := some (.delay 2), delayRemaining := 2 } }
       s.record.state = .armed ∧ s.record.startMode = some (.delay 2) ∧ 1 < s.record.delayRemaining) ∧
      (let s := { State.reset with calls := ⟨some ⟨⟨.a, 1, .general, 1#32, 0⟩, 2, 0⟩, [], 2⟩ }
       ∃ x, s.calls.live = some x ∧ 1 < x.limit) := by
  refine ⟨by decide +kernel, by decide +kernel, by decide +kernel, by decide +kernel, by decide +kernel, by decide +kernel, ?_⟩
  exact ⟨_, rfl, by decide⟩

/-- A run of cue 1000 whose AFTER_START follow has this long left. -/
def timing (ms : Nat) : Run :=
  { runOfCue 1000 with state := .active, follow := .afterStart 9, followState := .timing, followRemaining := ms }

theorem witness_MillisecondTakesWhatFallsDue :
    let s := { showOf [cueOf 1000 [], cueOf 2000 []] (some 2000) [timing 1, { runOfCue 2000 with preWait := 1 }] with
      calls := ⟨some ⟨⟨.a, 1, .general, 1#32, 0⟩, 1, 0⟩, [], 2⟩
      record := { State.reset.record with state := .armed, startMode := some (.delay 2), delayRemaining := 1 } }
    s.pending = [] ∧
      ((s.runner.runs.filter fun r => decide (r.followState = .timing ∧ r.followRemaining ≤ 1)).map fun r => r.cue) = [1000] ∧
      ((s.runner.runs.filter fun r => decide (r.state = .preWait ∧ r.preWait ≤ 1)).map fun r => r.cue) = [2000] ∧
      (∀ x, s.calls.live = some x → x.limit ≤ 1) ∧
      (s.record.state = .armed ∧ s.record.startMode = some (.delay 2) ∧ s.record.delayRemaining ≤ 1) ∧
      (∀ k, k < 32 → s.slot k = none) ∧ (State.reset.pending = [] ∧ State.reset.record.state ≠ .armed) := by
  refine ⟨rfl, by decide +kernel, by decide +kernel, fun x h => ?_, by decide +kernel, by decide +kernel, by decide +kernel⟩
  cases h
  decide

theorem witness_RequestsAndFramesReadBackEachWay :
    (let i := Instr.levelSet .a 5 ⟨255, 65535⟩ (-32768)
     wellFormed i = true ∧ requestFrame i = some (.a, ⟨5, 0x10, [255, 255, 255, 0x80, 0]⟩)) ∧
      parseRequest .p ⟨5, 0x30, [255, 255, 255]⟩ = some (.go .p 5 (some 16777215)) ∧
      requestFrame (.identity .p 0) = some (.p, ⟨0, 0x63, []⟩) := by decide +kernel

theorem witness_FrameCharactersComeToTheirFrame :
    Frame.fits ⟨0, 0x51, List.replicate 250 7⟩ = true ∧
      (let x : LaneState := { reply := some [⟨true, 5⟩, ⟨false, 0⟩] }
       x.reply = some [⟨true, 5⟩, ⟨false, 0⟩] ∧ [Character.mk true 5, ⟨false, 0⟩][1]? = some ⟨false, 0⟩ ∧ 10 < 11 ∧
         11 * [Character.mk true 5, ⟨false, 0⟩].length ≤ 22) ∧
      (State.reset.lanes.get .a).reply = none := by decide +kernel

theorem witness_GoodFrameIsTakenInOrder :
    let anyLane : List Nat := [0x14, 0x1A, 0x1C, 0x20, 0x28, 0x29, 0x2A, 0x2B, 0x2C, 0x30, 0x32, 0x33, 0x34, 0x39, 0x3A, 0x3B, 0x3C,
      0x40, 0x48, 0x49, 0x4A, 0x4B, 0x4C, 0x4D, 0x4E, 0x58, 0x59, 0x61, 0x63]
    let fullLane : List Nat := [0x10, 0x11, 0x12, 0x13, 0x18, 0x19, 0x1B, 0x31, 0x38, 0x41, 0x50, 0x51, 0x52, 0x53, 0x60, 0x62]
    (State.reset.lanes.get .p).line = .high ∧ (State.reset.lanes.get .p).slot = none ∧
      ((State.reset.onLane .a fun x => { x with slot := some ⟨1, 0x32, []⟩ }).lanes.get .a).slot = some ⟨1, 0x32, []⟩ ∧
      (0x64 ∉ anyLane ∧ 0x64 ∉ fullLane) ∧ 0x62 ∈ fullLane ∧
      (0x32 ∈ anyLane ∧ parseRequest .p ⟨1, 0x32, [0]⟩ = none) ∧
      (0x63 ∈ anyLane ∧ parseRequest .p ⟨1, 0x63, []⟩ = some (.identity .p 1)) ∧
      (Lane.b ≠ .p ∧ 0x10 ∈ fullLane ∧ parseRequest .b ⟨1, 0x10, [1, 0, 0, 0, 0]⟩ = some (.levelSet .b 1 ⟨1, 0⟩ 0)) := by
  decide +kernel

theorem witness_ReceiverFaultsAndLaneResets :
    (State.reset.lanes.get .a).line = .high ∧ ((State.reset.onLane .a fun x => { x with line := .low }).lanes.get .a).line = .low ∧
      ((State.reset.onLane .a fun x => { x with line := .broken }).lanes.get .a).line = .broken ∧
      (let s := State.reset.onLane .a fun x => { x with slot := some ⟨1, 0x32, []⟩, reply := some (replyChars 1 .ok []) }
       (s.lanes.get .a).slot = some ⟨1, 0x32, []⟩ ∧ (s.lanes.get .a).reply = some (replyChars 1 .ok [])) ∧
      (State.reset.lanes.get .p).line ≠ .broken := by decide +kernel

theorem witness_EffectiveLevelAndScaleFollowTheirRules : (-900 : Int) ≤ -900 ∧ (-900 : Int) < -899 := by decide

theorem witness_GainIsTheNearestInteger :
    ((-899 : Int) ≤ -899 ∧ (-899 : Int) ≤ 120) ∧ ((-899 : Int) ≤ 120 ∧ (120 : Int) ≤ 120) ∧
      ((-900 : Int) ≤ -900 ∧ (-900 : Int) ≤ 120 ∧ (120 : Int) ≤ 120) := by decide

/-- A state whose store holds group 7 of points 1003 and 1055. -/
def grouped : State :=
  { State.reset with store := { State.reset.store with
    groups := State.reset.store.groups.update 7 fun _ => some ⟨[], [1003, 1055], 1⟩ } }

theorem reset_slot (k : Nat) : State.reset.slot k = none := by
  by_cases h : k < Config.slots
  · exact Table.getD_replicate _ _ _ _ h
  · exact Table.getD_of_le _ _ _ (Nat.le_of_not_lt h)

theorem reset_membership (p : Nat) : (State.reset.point p).membership = none := by
  by_cases h : p < Config.points
  · have : State.reset.point p = {} := Table.getD_replicate _ _ _ _ h
    rw [this]
  · have : State.reset.point p = {} := Table.getD_of_le _ _ _ (Nat.le_of_not_lt h)
    rw [this]

theorem grouped_fadesOk : FadesOk grouped := by
  have hs : ∀ k, grouped.slot k = none := reset_slot
  refine ⟨fun p k _ => ?_, fun k f h => ?_, ?_⟩
  · have hm : (grouped.point p).membership = none := reset_membership p
    simp [hm, hs]
  · rw [hs] at h; cases h
  · decide +kernel

/-- Cue 2000's run waits for cue end with slot 0, which moves point 5, and cue 1000 of this action waits. -/
def cueEnding (a : Action) : State :=
  ((showOf [cueOf 1000 [a]] none [runOfCue 1000,
    { runOfCue 2000 with state := .active, follow := .afterEnd 9, followState := .waitingEnd, slots := 1 }]).setSlot 0
      (some ⟨some 2000, 0, -40, 10, .late, 9, [⟨5, -100⟩]⟩)).setMembership 5 (some 0)

theorem cueEnding_slot (a : Action) (k : Nat) :
    (cueEnding a).slot k = if k = 0 then some ⟨some 2000, 0, -40, 10, .late, 9, [⟨5, -100⟩]⟩ else none := by
  have e : (cueEnding a).slot k = (State.reset.setSlot 0 (some ⟨some 2000, 0, -40, 10, .late, 9, [⟨5, -100⟩]⟩)).slot k := rfl
  rw [e, State.slot_setSlot, reset_slot]
  by_cases h : k = 0
  · subst h; simp [show (0 : Nat) < Config.slots by decide]
  · simp [h]

theorem cueEnding_membership (a : Action) (p : Nat) : ((cueEnding a).point p).membership = if p = 5 then some 0 else none := by
  have e : (cueEnding a).point p = (State.reset.setMembership 5 (some 0)).point p := rfl
  rw [e, State.setMembership, State.point_onPoint]
  by_cases h : p = 5
  · subst h; simp [show (5 : Nat) < Config.points by decide]
  · simp [h, reset_membership]

theorem cueEnding_fadesOk (a : Action) : FadesOk (cueEnding a) := by
  refine ⟨fun p k _ => ?_, fun k f h => ?_, ?_⟩
  · rw [cueEnding_membership, cueEnding_slot]
    by_cases h : p = 5 <;> by_cases hk : k = 0 <;> simp [h, hk, eq_comm]
  · rw [cueEnding_slot] at h
    split at h
    · cases h; simp
    · cases h
  · have : (cueEnding a).poolUsed = (cueEnding (.mask 0 true)).poolUsed := rfl
    rw [this]
    decide +kernel

theorem witness_LevelSetWritesBasesAndGrabs :
    Lane.b ≠ .p ∧ NamesNothing grouped.store ⟨1, 1056⟩ ∧ NamesNothing grouped.store ⟨2, 63⟩ ∧
      ((0 : Nat) ≠ 1 ∧ (0 : Nat) ≠ 2) ∧ Names grouped.store false ⟨1, 1055⟩ [1055] ∧
      Names grouped.store false ⟨2, 7⟩ [1003, 1055] ∧
      (FadesOk grouped ∧ (∀ p ∈ [1003, 1055], p < 1056) ∧ ∀ c, grouped.emptiedOf [1003, 1055] c = 0) ∧
      (let s := cueEnding (.halt (.point 5))
       FadesOk s ∧ Names s.store false ⟨1, 5⟩ [5] ∧ (∀ p ∈ [5], p < 1056) ∧ (s.runner.runs.map (·.cue)).Nodup ∧
         s.emptiedOf [5] 2000 = 1) := by
  refine ⟨by decide, .inl ⟨rfl, by decide⟩, .inr ⟨rfl, by decide +kernel⟩, by decide, .inl ⟨rfl, by decide, rfl⟩,
    .inr (.inl ⟨rfl, ⟨[], [1003, 1055], 1⟩, by decide +kernel, rfl⟩), ⟨grouped_fadesOk, by decide, fun c => ?_⟩,
    cueEnding_fadesOk _, .inl ⟨rfl, by decide, rfl⟩, by decide, by decide +kernel, by decide +kernel⟩
  have hs : ∀ k, grouped.slot k = none := reset_slot
  simp [State.emptiedOf, hs]

theorem witness_TrimRequestsWriteTrimsAlone :
    Lane.a ≠ .p ∧ NamesNothing grouped.store ⟨1, 1056⟩ ∧ Names grouped.store false ⟨2, 7⟩ [1003, 1055] ∧
      [1003, 1055].Nodup ∧ Names grouped.store true ⟨3, 65535⟩ (List.range Config.points) ∧
      ((3 : Nat) ≠ 1 ∧ (3 : Nat) ≠ 2) ∧ ((0 : Nat) ≠ 1 ∧ (0 : Nat) ≠ 2 ∧ (0 : Nat) ≠ 3) :=
  ⟨by decide, .inl ⟨rfl, by decide⟩, .inr (.inl ⟨rfl, ⟨[], [1003, 1055], 1⟩, by decide +kernel, rfl⟩), by decide,
    .inr (.inr ⟨rfl, rfl, rfl⟩), by decide, by decide⟩

theorem witness_LevelFadeAndAudioReadsReportTheState :
    1056 ≤ 1056 ∧ (1055 < 1056 ∧ (17 = 0 ∨ 16 < 17)) ∧ (1055 < 1056 ∧ 1 ≤ 16 ∧ 16 ≤ 16) ∧ 32 ≤ 32 ∧
      (31 < 32 ∧ (0 = 0 ∨ 8 < 0)) ∧ (31 < 32 ∧ 1 ≤ 8 ∧ 8 ≤ 8) := by decide

theorem witness_InputMapIsSwappedRestoredAndRead :
    Lane.p = .p ∧ (Lane.a ≠ .p ∧ (40 ≤ 39 ∨ 40 ≤ 40)) ∧ (Lane.b ≠ .p ∧ 0 < 40 ∧ 39 < 40) := by decide

theorem witness_MixMaskSetsItsFlag :
    Lane.p = .p ∧ (Lane.a ≠ .p ∧ 24 ≤ 24) ∧ (Lane.a ≠ .p ∧ 23 < 24 ∧ 0 ≠ 1 ∧ 0 ≠ 2) ∧
      (Lane.a ≠ .p ∧ 23 < 24 ∧ (2 = 1 ∨ 2 = 2)) := by decide

theorem witness_FrameSlotsAreTheMixAndZoneSums : 23 < 24 ∧ 31 < 32 := by decide

/-- The state after power-on with this audio state. -/
def audioOf (c : ClockState) (good : Nat) (frames : Nat) : State :=
  { State.reset with audio := { State.reset.audio with
    clock := c, goodPeriods := good, pipeline := List.replicate frames ⟨[], []⟩ } }

theorem witness_AudioFrameLeavesFourFramesLater :
    State.reset.audio.clock = .absent ∧ ((audioOf .good 0 4).audio.clock = .good ∧ (audioOf .good 0 4).audio.pipeline.length = 4) ∧
      ((audioOf .recovering 46 4).audio.clock = .recovering ∧ (audioOf .recovering 46 4).audio.pipeline.length ≤ 4 ∧
        (audioOf .recovering 46 4).audio.goodPeriods < 47) ∧
      ((audioOf .recovering 47 0).audio.clock = .recovering ∧ (audioOf .recovering 47 0).audio.pipeline.length ≤ 4 ∧
        47 ≤ (audioOf .recovering 47 0).audio.goodPeriods) := by decide +kernel

theorem witness_AudioFrameMeasuresEveryZone :
    ((audioOf .good 0 4).audio.clock ≠ .absent ∧ (audioOf .good 0 4).audio.clock = .good) ∧
      ((audioOf .recovering 46 4).audio.clock = .recovering ∧ (audioOf .recovering 46 4).audio.goodPeriods + 1 < 48) ∧
      ((audioOf .recovering 47 4).audio.clock = .recovering ∧ 48 ≤ (audioOf .recovering 47 4).audio.goodPeriods + 1) ∧
      31 < 32 := by decide +kernel

theorem witness_AudioClockFaultBeginsAndClears :
    (audioOf .good 0 4).audio.clock = .good ∧ (audioOf .recovering 47 0).audio.clock = .recovering ∧
      State.reset.audio.clock = .absent := by decide +kernel

theorem witness_FadeLawShapesProgressAndStops :
    1 ≤ 1 ∧ (65280 ≤ 65536 ∧ 65536 ≤ 65536) ∧ (65281 ≤ 65536 ∧ 65536 - 65281 < 256) ∧ 255 < 256 ∧
      (0 ≤ 65536 ∧ 65536 ≤ 65536) ∧ (-900 : Int) ≤ 120 ∧ (-900 : Int) ≤ -900 := by decide

/-- A state in which slot 3 moves points 5 and 6 and one more advance completes it, and slot 4 moves point 7 on. -/
def fading : State :=
  ((((State.reset.setSlot 3 (some ⟨none, 0, -40, 10, .late, 9, [⟨5, -100⟩, ⟨6, -100⟩]⟩)).setSlot 4
    (some ⟨none, 0, -40, 10, .late, 8, [⟨7, -100⟩]⟩)).setMembership 5 (some 3)).setMembership 6 (some 3)).setMembership 7 (some 4)

theorem fading_slot (k : Nat) : fading.slot k =
    if k = 4 then some ⟨none, 0, -40, 10, .late, 8, [⟨7, -100⟩]⟩
    else if k = 3 then some ⟨none, 0, -40, 10, .late, 9, [⟨5, -100⟩, ⟨6, -100⟩]⟩ else none := by
  have e : fading.slot k = ((State.reset.setSlot 3 (some ⟨none, 0, -40, 10, .late, 9, [⟨5, -100⟩, ⟨6, -100⟩]⟩)).setSlot 4
    (some ⟨none, 0, -40, 10, .late, 8, [⟨7, -100⟩]⟩)).slot k := rfl
  rw [e, State.slot_setSlot, State.slot_setSlot, reset_slot]
  by_cases h4 : k = 4
  · subst h4; simp [show (4 : Nat) < Config.slots by decide]
  · by_cases h3 : k = 3
    · subst h3; simp [show (3 : Nat) < Config.slots by decide]
    · simp [h3, h4]

theorem fading_membership (p : Nat) : (fading.point p).membership =
    if p = 7 then some 4 else if p = 6 then some 3 else if p = 5 then some 3 else none := by
  unfold fading
  simp only [State.setMembership, State.point_onPoint]
  have hr : ∀ q, ((State.reset.setSlot 3 (some ⟨none, 0, -40, 10, .late, 9, [⟨5, -100⟩, ⟨6, -100⟩]⟩)).setSlot 4
    (some ⟨none, 0, -40, 10, .late, 8, [⟨7, -100⟩]⟩)).point q = State.reset.point q := fun _ => rfl
  by_cases h7 : p = 7
  · subst h7; simp [show (7 : Nat) < Config.points by decide]
  · by_cases h6 : p = 6
    · subst h6; simp [show (6 : Nat) < Config.points by decide]
    · by_cases h5 : p = 5
      · subst h5; simp [show (5 : Nat) < Config.points by decide]
      · simp [h5, h6, h7, hr, reset_membership]

theorem fading_fadesOk : FadesOk fading := by
  refine ⟨fun p k _ => ?_, fun k f h => ?_, ?_⟩
  · rw [fading_membership, fading_slot]
    by_cases h4 : k = 4
    · subst h4
      by_cases h7 : p = 7
      · subst h7; simp
      · by_cases h6 : p = 6
        · subst h6; simp
        · by_cases h5 : p = 5
          · subst h5; simp
          · simp [h5, h6, h7, eq_comm]
    · by_cases h3 : k = 3
      · subst h3
        by_cases h7 : p = 7
        · subst h7; simp
        · by_cases h6 : p = 6
          · subst h6; simp
          · by_cases h5 : p = 5
            · subst h5; simp
            · simp only [h5, h6, h7, if_false, if_true]
              simp
              exact ⟨fun e => h5 e.symm, fun e => h6 e.symm⟩
      · simp only [h3, h4, if_false]
        simp
        split
        · simp; exact fun e => h4 e.symm
        · split
          · simp; exact fun e => h3 e.symm
          · split
            · simp; exact fun e => h3 e.symm
            · simp
  · rw [fading_slot] at h
    split at h
    · cases h; simp
    · split at h
      · cases h; simp
      · cases h
  · decide +kernel

theorem witness_FadeAdvanceMovesEveryMember :
    FadesOk fading ∧ (∀ k f, fading.slot k = some f → (f.members.map (·.point)).Nodup) ∧
      (∃ f, fading.slot 4 = some f ∧ f.elapsed + 1 < f.duration ∧ ∃ m ∈ f.members, m.point < 1056) ∧
      (∃ f, fading.slot 3 = some f ∧ f.duration ≤ f.elapsed + 1 ∧ ∃ m ∈ f.members, m.point < 1056) ∧
      fading.slot 0 = none ∧ (fading.point 0).membership = none := by
  refine ⟨fading_fadesOk, fun k f h => ?_, ⟨_, fading_slot 4, by decide, ⟨7, -100⟩, by decide, by decide⟩,
    ⟨_, fading_slot 3, by decide, ⟨5, -100⟩, by decide, by decide⟩, fading_slot 0, fading_membership 0⟩
  rw [fading_slot] at h
  split at h
  · cases h; decide
  · split at h
    · cases h; decide
    · cases h

/-- A state in which slot 31 has this owner, and the owner's run is `r`. -/
def owned (o : Option Nat) (r : Run) : State :=
  (showOf [cueOf 1000 []] none [r]).setSlot 31 (some ⟨o, 0, -40, 10, .late, 9, [⟨1055, -100⟩]⟩)

theorem witness_FadeCompletionFreesAndReports :
    (∃ f, (owned none (runOfCue 1000)).slot 31 = some f ∧ f.owner = none) ∧
      (let r := { runOfCue 1000 with state := .active, slots := 2 }
       ∃ f, (owned (some 1000) r).slot 31 = some f ∧ f.owner = some 1000 ∧ (owned (some 1000) r).run? 1000 = some r ∧ 1 < r.slots) ∧
      (let r := { runOfCue 1000 with state := .active, slots := 1, follow := .afterEnd 5, followState := .waitingEnd }
       (owned (some 1000) r).run? 1000 = some r ∧ r.slots = 1 ∧ r.followState = .waitingEnd) ∧
      (let r := { runOfCue 1000 with state := .active, slots := 1 }
       (owned (some 1000) r).run? 1000 = some r ∧ r.slots = 1 ∧ r.state = .active ∧ r.followState = .none) :=
  ⟨⟨⟨none, 0, -40, 10, .late, 9, [⟨1055, -100⟩]⟩, by decide +kernel⟩,
    ⟨⟨some 1000, 0, -40, 10, .late, 9, [⟨1055, -100⟩]⟩, by decide +kernel⟩, by decide +kernel, by decide +kernel⟩

theorem witness_NextCueIsTheLeastAbove :
    ([cueOf 1 [], cueOf 9999999 []] : List Cue).Pairwise (fun c d => c.number < d.number) := by decide +kernel

/-- An image of this status and header for the target. -/
def imageOf (st : ImageStatus) (h : StageHeader) (target declared : Nat) : Image :=
  { status := st, header := h, target := target, declared := declared, actions := [], members := [], expected := 0,
    committed := false }

/-- The state after power-on with this image in Lane A's buffer. -/
def staged (m : Image) : State := { State.reset with staging := ⟨some m, none⟩ }

theorem witness_StoreAndStagingReadsReportTheRecords :
    let s := { grouped with store := { grouped.store with cues := [cueOf 1000 [], cueOf 9999999 []] } }
    (s.store.cues.Pairwise (fun c d => c.number < d.number) ∧ 9999999 ≤ 9999999 ∧ 1 ≤ 16 ∧ 16 ≤ 16) ∧
      s.store.cue? 2000 = none ∧ (s.store.cue? 1000 = some (cueOf 1000 []) ∧ 31 ≤ 31) ∧ s.store.group? 8 = none ∧
      s.store.group? 7 = some ⟨[], [1003, 1055], 1⟩ ∧ 31 < 32 ∧ (Lane.b ≠ .p ∧ s.buffer .b = none) ∧
      (let m := imageOf .opened (.cue [65] 0 1 0 0 0) 1000 1
       Lane.a ≠ .p ∧ (staged m).buffer .a = some m ∧ (m.header.kindCode = 1 ∧ 31 ≤ 31) ∧ (m.chars 31).length ≤ 250) := by decide +kernel

theorem witness_StageBeginStartsAnImage :
    Lane.a ≠ .p ∧ headerFits (.unknown 8 []) = false ∧ headerFits .removeCue = true ∧ (31 < 32 ∧ ¬ 32 < 32) ∧
      (¬ (1 ≤ 0 ∧ 0 ≤ 9999999) ∧ (1 ≤ 9999999 ∧ 9999999 ≤ 9999999)) ∧ (¬ 33 ≤ 32 ∧ 32 ≤ 32) ∧
      (let named : Nat → List Byte → Prop := fun k label =>
         label.length ≤ k ∧ ∀ c ∈ label, 32 ≤ c.toNat ∧ c.toNat ≤ 126
       ¬ named 24 [127] ∧ named 24 (List.replicate 24 126)) ∧
      (600000 ≤ 600000 ∧ (4 = 4 ∧ 1 ≤ 255 ∧ 255 ≤ 255) ∧ 1 ≤ 1) ∧ ¬ 600001 ≤ 600000 := by decide +kernel

theorem witness_StageAddAppendsItems :
    Lane.a ≠ .p ∧ State.reset.buffer .a = none ∧
      (let m := imageOf .complete (.group [65]) 63 1
       (staged m).buffer .a = some m ∧ m.status ≠ .opened) ∧
      (let m := imageOf .opened (.group [65]) 63 12
       (staged m).buffer .a = some m ∧ m.status = .opened ∧ m.actions = [] ∧ 1 ≤ (List.range 12).length ∧
         (List.range 12).length ≤ 12 ∧ (∀ p ∈ List.range 12, p < 1056) ∧ (m.members ++ List.range 12).Nodup ∧
         m.members.length + (List.range 12).length ≤ m.declared ∧ m.members.length < m.declared ∧ 1056 ≤ 65535 ∧ 65535 < 65536) ∧
      (let m := imageOf .opened (.cue [65] 0 1 0 0 0) 1000 1
       (staged m).buffer .a = some m ∧ m.status = .opened ∧ m.members = [] ∧
         m.actions.length + [Action.route 31 (some 23)].length ≤ m.declared) ∧
      (let m := imageOf .opened (.group [65]) 63 12
       (staged m).buffer .a = some m ∧ ([5] ++ 1056 :: [6]).length ≤ 12 ∧ (m.members ++ [5]).Nodup ∧
         m.members.length + [5].length ≠ m.declared ∧ 1056 ≤ 1056 ∧ ¬ 1056 ≤ 1055 ∧ 5 ∈ m.members ++ [5]) ∧
      (let m := imageOf .opened (.group [65]) 63 1
       m.members.length + [5].length = m.declared) ∧
      (let m := imageOf .opened (.cue [65] 0 1 0 0 0) 1000 2
       (Action.route 32 none).chars.length = 12 ∧ 12 * [Action.halt (.point 1055)].length + 12 + 0 ≤ 144 ∧
         m.actions.length + [Action.halt (.point 1055)].length ≠ m.declared ∧ (6 : Byte) ∉ ([1, 2, 3, 4, 5] : List Byte) ∧
         m.header.kindCode = 1 ∧ 13 % 12 ≠ 0) ∧
      Action.InRange (.route 31 (some 23)) ∧ ¬ Action.InRange (.route 32 none) ∧ Action.FitsItem (.route 32 none) := by
  refine ⟨by decide, by decide +kernel, by decide +kernel, by decide +kernel, by decide +kernel, by decide +kernel,
    by decide +kernel, by decide +kernel, ⟨by decide, fun k h => ?_⟩, fun h => absurd h.1 (by decide), by decide, fun k h => ?_⟩
  · cases h
    decide
  · cases h

theorem witness_StageCommitChecksInOrder :
    Lane.a ≠ .p ∧ State.reset.buffer .a = none ∧
      (let m := imageOf .opened .removeCue 1000 0
       (staged m).buffer .a = some m ∧ m.status ≠ .complete) ∧
      (let m := imageOf .complete .removeCue 1000 0
       (staged m).buffer .a = some m ∧ m.status = .complete ∧ ¬ (6 = m.header.kindCode ∧ 1000 = m.target ∧ 0 = m.declared ∧ 1 = m.expected) ∧
         (6 = m.header.kindCode ∧ 1000 = m.target ∧ 0 = m.declared ∧ 0 = m.expected) ∧
         (inState .running (staged m)).record.state = .running ∧
         ((6 = 1 ∨ 6 = 6) ∧ ((showOf [cueOf 1000 []] none [runOfCue 1000]).run? 1000).isSome) ∧ (staged m).run? 1000 = none ∧
         (showOf [cueOf 1000 []] none []).store.editCountOf 1000 m.header ≠ 0 ∧
         (staged m).store.editCountOf 1000 m.header = 0 ∧ m.header = .removeCue ∧ (staged m).store.cue? 1000 = none) ∧
      (let s := { grouped with
         store := { grouped.store with cues := [cueOf 1000 [.halt (.group 7)]] }
         staging := ⟨some { imageOf .complete .removeGroup 7 0 with expected := 1 }, none⟩ }
       (s.store.group? 7).isSome ∧ 0 < s.store.references 7 ∧ s.store.editCountOf 7 .removeGroup = 1) ∧
      ((imageOf .complete .removeGroup 63 0).header = .removeGroup ∧ State.reset.store.group? 63 = none) ∧
      (let m := { imageOf .complete (.cue [65] 0 1 0 0 0) 1000 2 with actions := [Action.halt (.group 7), .halt (.group 63)] }
       (staged m).buffer .a = some m ∧ m.actions[1]? = some (.halt (.group 63)) ∧
         (Action.halt (.group 63)).groupNamed = some 63 ∧ grouped.store.group? 63 = none ∧
         ∀ b ∈ m.actions.take 1, b.groupNamed = some 7 ∧ (grouped.store.group? 7).isSome) ∧
      (let st : Store := { State.reset.store with cues := (List.range 400).map fun k => cueOf (k + 2) [] }
       st.cue? 1 = none ∧ 400 ≤ st.cues.length) ∧
      (let st : Store := { State.reset.store with
         cues := (List.range 96).map fun k => cueOf (k + 2) (List.replicate 32 (.mask 0 true)) }
       st.cues.length < 400 ∧ st.freeActions + ((st.cue? 1).map fun c => c.actions.length).getD 0 < 1) ∧
      (let st : Store := { State.reset.store with
         groups := .tabulate _ fun k => if k < 16 then some ⟨[], List.range 64, 1⟩ else none }
       st.freeMembers + ((st.group? 63).map fun g => g.members.length).getD 0 < 1) := by decide +kernel

theorem witness_StageCommitChangesItsRecord :
    (let m := { imageOf .complete (.cue [65] 0 1 0 0 0) 1000 1 with actions := [Action.halt (.group 7)] }
     let s := { grouped with staging := ⟨some m, none⟩ }
     Lane.a ≠ .p ∧ s.buffer .a = some m ∧ m.status = .complete ∧ s.record.state ≠ .running ∧ s.record.state ≠ .interval ∧
       s.run? m.target = none ∧ s.store.cueEdit m.target = m.expected ∧
       (∀ a ∈ m.actions, a.groupNamed = some 7) ∧ (s.store.group? 7).isSome ∧
       ((s.store.cue? m.target).isSome ∨ s.store.cues.length < 400) ∧
       m.declared ≤ s.store.freeActions + ((s.store.cue? m.target).map fun c => c.actions.length).getD 0) ∧
    (let m := { imageOf .complete .removeCue 1000 0 with expected := 1 }
     let s := { showOf [cueOf 1000 []] (some 1000) [] with staging := ⟨none, some m⟩ }
     Lane.b ≠ .p ∧ s.buffer .b = some m ∧ m.status = .complete ∧ s.run? m.target = none ∧
       s.store.cueEdit m.target = m.expected ∧ m.header = .removeCue ∧ (s.store.cue? m.target).isSome) := by decide +kernel

theorem witness_StageCommitChangesGroupsAndSetups :
    (let m := { imageOf .complete (.group [65]) 63 1 with members := [1055] }
     Lane.a ≠ .p ∧ (staged m).buffer .a = some m ∧ m.status = .complete ∧ (staged m).record.state ≠ .running ∧
       (staged m).record.state ≠ .interval ∧ m.header = .group [65] ∧ m.target < 64 ∧
       (staged m).store.groupEdit m.target = m.expected ∧
       m.declared ≤ (staged m).store.freeMembers + (((staged m).store.group? m.target).map fun g => g.members.length).getD 0) ∧
    (let m := { imageOf .complete .removeGroup 7 0 with expected := 1 }
     let s := { grouped with staging := ⟨some m, none⟩ }
     m.header = .removeGroup ∧ s.store.groupEdit m.target = m.expected ∧ (s.store.group? m.target).isSome ∧
       s.store.references m.target = 0) ∧
    (let m := { imageOf .complete (.zoneSetup 0 1 (-100) 0 1) 31 0 with expected := 1 }
     m.header = .zoneSetup 0 1 (-100) 0 1 ∧ m.target < 32 ∧ ((staged m).zoneSetup m.target).editCount = m.expected ∧
       ((staged m).zoneSetup m.target).duckDepth ≠ 0 ∧ ((staged m).zone m.target).ramp = none) ∧
    (((State.reset.onZone 31 fun z => { z with duck := 1, ramp := some ⟨.attack, 0, 200, 150, 1⟩ }).zone 31).ramp =
        some ⟨.attack, 0, 200, 150, 1⟩ ∧
      ((State.reset.onZone 31 fun z => { z with duck := 1, ramp := some ⟨.release, 2, 0, 500, 250⟩ }).zone 31).ramp =
        some ⟨.release, 2, 0, 500, 250⟩) ∧
    (let m := { imageOf .complete (.triggerSetup (List.replicate 16 2)) 0 0 with expected := 1 }
     m.target = 0 ∧ (staged m).store.triggerSetup.editCount = m.expected ∧ 15 < 16) ∧
    (let m := { imageOf .complete (.showSetup 2 600 2000 5000) 0 0 with expected := 1 }
     m.target = 0 ∧ (staged m).store.showSetup.editCount = m.expected) := by decide +kernel

theorem witness_StoreIsLockedDuringAPerformance :
    ∃ s t, (s.record.state = .running ∨ s.record.state = .interval) ∧
      (∀ c rest, s.pending = c :: rest → c ≠ .powerOn ∧ c ≠ .resetPin) ∧ step s = .next t := by
  refine ⟨{ inState .running State.reset with pending := [.clockReturn] }, _, .inl rfl, ?_, rfl⟩
  intro c rest h
  cases h
  exact ⟨by decide, by decide⟩


theorem witness_GoTakesStandbyInOrder :
    (let cue := { cueOf 1000 [] with curtain := true, preWait := 0, promptCallable := true, follow := Follow.beats 3 }
     let s := inState .armed (showOf [cue] (some 1000) [])
     let s := { s with record := { s.record with startMode := some .curtain } }
     s.runner.standby = some 1000 ∧ s.store.cue? 1000 = some cue ∧ cue.promptCallable = true ∧ s.run? 1000 = none ∧
       s.runner.runs.length < 16 ∧ (cue.curtain && decide (s.record.state = .armed ∧ s.record.startMode = some .curtain)) = true) ∧
      (let r := { runOfCue 9999999 with state := .active }
       let s := showOf [cueOf 9999999 []] (some 9999999) [r]
       s.runner.standby = some 9999999 ∧ s.store.cue? 9999999 = some (cueOf 9999999 []) ∧ s.run? 9999999 = some r ∧
         r.state = .active ∧ s.runner.runs.length ≤ 16 ∧ (cueOf 9999999 []).curtain = false ∧
         1 ≤ (cueOf 9999999 []).preWait) ∧
      (let rs := (List.range 16).map fun k => { runOfCue (k + 1) with state := .active }
       let s := showOf [cueOf 9999999 []] (some 9999999) rs
       s.runner.standby = some 9999999 ∧ s.run? 9999999 = none ∧
         s.runner.runs = { runOfCue 1 with state := .active } :: rs.drop 1 ∧ (rs.drop 1).length = 15) ∧
      (let a := Action.level (.point 1055) 120 1 .late false
       let s := showOf [cueOf 1000 [a]] (some 1000) [runOfCue 1000]
       s.run? 1000 = some (runOfCue 1000) ∧ (runOfCue 1000).state = .preWait ∧ s.runner.runs.length ≤ 16 ∧
         (s.point 1055).membership = none ∧ s.slot 0 = none ∧ 1 ≤ s.poolFree) := by decide +kernel

theorem witness_GoIsRefusedByItsFirstFailingCheck :
    (9999999 < 10000000 ∧ State.reset.runner.standby = none) ∧
      (let s := showOf [cueOf 1 []] (some 1) []
       s.runner.standby = some 1 ∧ s.store.cue? 1 = some (cueOf 1 []) ∧ (1 ≤ 9999999 ∧ 9999999 ≤ 9999999 ∧ 9999999 ≠ 1) ∧
         Lane.p = .p ∧ (cueOf 1 []).promptCallable = false) := by decide +kernel

/-- Cue 1000 has its run in PRE_WAIT with no slot, and stands in the stack with these actions. -/
def Waits (s : State) (acts : List Action) : Prop :=
  s.run? 1000 = some (runOfCue 1000) ∧ (runOfCue 1000).state = .preWait ∧ (runOfCue 1000).slots = 0 ∧
    s.store.cue? 1000 = some (cueOf 1000 acts)

/-- A state in which cue 1000, of these actions, has its run in PRE_WAIT. -/
def waiting (acts : List Action) : State := showOf [cueOf 1000 acts] none [runOfCue 1000]

theorem waiting_waits (acts : List Action) : Waits (waiting acts) acts := ⟨rfl, rfl, rfl, rfl⟩

theorem witness_PreWaitEndDispatchesTheActions :
    Waits (waiting []) [] ∧ (Waits (waiting [.route 31 none]) [.route 31 none] ∧ 31 < 32) ∧
      Waits (waiting [.route 0 none, .route 0 (some 23)]) [.route 0 none, .route 0 (some 23)] ∧
      (Waits (waiting [.mask 23 true]) [.mask 23 true] ∧ 23 < 24) ∧
      (Waits (waiting [.trigger 15 (.repeating 20 255)]) [.trigger 15 (.repeating 20 255)] ∧ 15 < 16) ∧
      (Waits (waiting [.level (.point 1055) 120 0 .linear true]) [.level (.point 1055) 120 0 .linear true] ∧
        ((waiting [.level (.point 1055) 120 0 .linear true]).point 1055).membership = none ∧ (-900 : Int) ≤ 120 ∧
        (120 : Int) ≤ 120) :=
  ⟨waiting_waits _, ⟨waiting_waits _, by decide⟩, waiting_waits _, ⟨waiting_waits _, by decide⟩,
    ⟨waiting_waits _, by decide⟩, waiting_waits _, reset_membership _, by decide, by decide⟩

/-- Cue 1000, of this action, waits in a state whose slot 0 moves these points with this owner. -/
def moving (a : Action) (owner : Option Nat) (ps : List Nat) : State :=
  ps.foldl (fun s p => s.setMembership p (some 0))
    ((waiting [a]).setSlot 0 (some ⟨owner, 0, -40, 10, .late, 9, ps.map fun p => ⟨p, -100⟩⟩))

/-- Cue 1000, of this action, waits in a state all of whose slots are in use. -/
def crowded (a : Action) : State :=
  { waiting [a] with slots := .tabulate _ fun k => some ⟨none, 0, -40, 10, .late, 0, [⟨k, 0⟩]⟩ }

theorem witness_MovesStartSnapAndTakeOver :
    (let a := Action.level (.group 7) (-900) 1 .late true
     let s := { waiting [a] with store := { grouped.store with cues := [cueOf 1000 [a]] } }
     Waits s [a] ∧ (∃ grp, s.store.group? 7 = some grp ∧ [1003, 1055] = grp.members) ∧ [1003, 1055].Nodup ∧
       (∀ p ∈ [1003, 1055], p < 1056 ∧ (s.point p).membership = none) ∧ s.slot 0 = none ∧ [1003, 1055].length ≤ s.poolFree) ∧
      (let a := Action.level (.point 1055) 120 600000 .linear false
       Waits (crowded a) [a] ∧ (∀ k, k < 32 → (crowded a).slot k ≠ none) ∧ ((crowded a).point 1055).membership = none) ∧
      (let a := Action.level (.point 5) 120 1 .linear false
       Waits (moving a (some 1) [5, 6]) [a] ∧ ((moving a (some 1) [5, 6]).point 5).membership = some 0 ∧
         (∃ f, (moving a (some 1) [5, 6]).slot 0 = some f ∧ ∃ m ∈ f.members, m.point ≠ 5) ∧
         (moving a (some 1) [5, 6]).slot 1 = none ∧ (∀ i, i < 1 → (moving a (some 1) [5, 6]).slot i ≠ none) ∧
         1 ≤ (moving a (some 1) [5, 6]).poolFree) ∧
      (let a := Action.halt (.point 5)
       Waits (moving a (some 1) [5, 6]) [a] ∧ ((moving a (some 1) [5, 6]).point 5).membership = some 0 ∧
         ∃ f, (moving a (some 1) [5, 6]).slot 0 = some f ∧ ∃ m ∈ f.members, m.point ≠ 5) ∧
      (let a := Action.halt (.point 5)
       Waits (moving a none [5]) [a] ∧ ((moving a none [5]).point 5).membership = some 0 ∧
         ∃ f, (moving a none [5]).slot 0 = some f ∧ (∀ m ∈ f.members, m.point = 5) ∧ f.owner = none) ∧
      (let a := Action.halt (.point 5)
       Waits (cueEnding a) [a] ∧ FadesOk (cueEnding a) ∧ ((cueEnding a).runner.runs.map (·.cue)).Nodup ∧ (∀ p ∈ [5], p < 1056) ∧
         (cueEnding a).emptiedOf [5] 2000 = 1) ∧
      (let a := Action.level (.point 5) 120 1 .linear true
       Waits (cueEnding a) [a] ∧ FadesOk (cueEnding a) ∧ ((cueEnding a).runner.runs.map (·.cue)).Nodup ∧ (∀ p ∈ [5], p < 1056) ∧
         [5].Nodup ∧ ((cueEnding a).slot 0).bind (FadeSlot.without [5]) = none ∧
         [5].length ≤ (cueEnding a).poolFree + ([5].filter fun p => ((cueEnding a).point p).membership.isSome).length) := by
  refine ⟨⟨waiting_waits _, ⟨⟨[], [1003, 1055], 1⟩, by decide +kernel, rfl⟩, by decide, fun p hp => ⟨?_, reset_membership p⟩,
      reset_slot 0, by decide +kernel⟩,
    ⟨waiting_waits _, by decide +kernel, reset_membership _⟩,
    ⟨⟨rfl, rfl, rfl, rfl⟩, by decide +kernel, ⟨⟨some 1, 0, -40, 10, .late, 9, [⟨5, -100⟩, ⟨6, -100⟩]⟩, by decide +kernel⟩,
      by decide +kernel, by decide +kernel, by decide +kernel⟩,
    ⟨⟨rfl, rfl, rfl, rfl⟩, by decide +kernel, ⟨⟨some 1, 0, -40, 10, .late, 9, [⟨5, -100⟩, ⟨6, -100⟩]⟩, by decide +kernel⟩⟩,
    ⟨⟨rfl, rfl, rfl, rfl⟩, by decide +kernel, ⟨⟨none, 0, -40, 10, .late, 9, [⟨5, -100⟩]⟩, by decide +kernel⟩⟩,
    ⟨⟨rfl, rfl, rfl, rfl⟩, cueEnding_fadesOk _, by decide +kernel, by decide, by decide +kernel⟩,
    ⟨rfl, rfl, rfl, rfl⟩, cueEnding_fadesOk _, by decide +kernel, by decide, by decide, by decide +kernel, by decide +kernel⟩
  revert p
  decide

/-- Actions of each kind that are whole at once, two of them on one zone. -/
def mixedActs : List Action :=
  [.route 31 none, .mask 23 true, .trigger 15 (.pulse 1), .level (.point 1055) 120 0 .late true, .halt (.point 0),
    .route 31 (some 23)]

theorem mixedActs_atOnce (acts : List Action) : ∀ a ∈ mixedActs, a.AtOnce (waiting acts) := by
  intro a ha
  have hp : ∀ p, ((waiting acts).point p).membership = none := reset_membership
  fin_cases ha <;> refine ⟨fun p h => ?_, ?_⟩ <;> first
    | exact (List.not_mem_nil h).elim
    | (replace h : p ∈ [_] := h; rw [List.mem_singleton] at h; subst h; exact ⟨by decide, hp _⟩)
    | trivial

theorem witness_ActionListsOfSeveralKindsAreHandedInOrder :
    (Waits (waiting mixedActs) mixedActs ∧ ∀ a ∈ mixedActs, a.AtOnce (waiting mixedActs)) ∧
      (let acts := mixedActs ++ Action.level (.point 7) (-900) 1 .early true :: mixedActs
       Waits (waiting acts) acts ∧ (∀ a ∈ mixedActs ++ mixedActs, a.AtOnce (waiting acts)) ∧
         (∀ a ∈ mixedActs, 7 ∉ (waiting acts).store.pointsNamed a) ∧ 7 < 1056 ∧
         ((waiting acts).point 7).membership = none ∧ (waiting acts).slot 0 = none ∧ 1 ≤ (waiting acts).poolFree) ∧
      (let acts := [Action.level (.point 7) (-900) 1 .early true, .level (.point 7) 120 600000 .late false]
       Waits (waiting acts) acts ∧ ((waiting acts).point 7).membership = none ∧ (waiting acts).slot 0 = none ∧
         1 ≤ (waiting acts).poolFree ∧ (runOfCue 1000).follow = .none ∧ (runOfCue 1000).followState = .none) := by
  refine ⟨⟨waiting_waits _, mixedActs_atOnce _⟩, ⟨waiting_waits _, fun a ha => ?_, by decide +kernel, by decide,
    reset_membership 7, reset_slot 0, by decide +kernel⟩, waiting_waits _, reset_membership 7, reset_slot 0,
    by decide +kernel, rfl, rfl⟩
  exact mixedActs_atOnce _ a ((List.mem_append.1 ha).elim id id)

theorem witness_FollowExpiryGoesOrIsVoid :
    (let r := { runOfCue 1000 with state := .active, follow := .afterStart 0, followState := .timing }
     let s := showOf [cueOf 1000 []] none [r]
     s.run? 1000 = some r ∧ r.followState = .timing ∧ s.store.nextAfter 1000 = none) ∧
      (let r := { runOfCue 1000 with follow := .beats 1, followState := .counting, followRemaining := 1 }
       let s := showOf [cueOf 1000 [], cueOf 9999999 []] (some 9999999) [r]
       s.run? 1000 = some r ∧ r.followState = .counting ∧ s.store.nextAfter 1000 = some 9999999 ∧
         s.runner.standby = some 9999999 ∧ s.store.cue? 9999999 = some (cueOf 9999999 []) ∧
         1 ≤ (cueOf 9999999 []).preWait ∧ (cueOf 9999999 []).curtain = false ∧ s.run? 9999999 = none ∧
         s.runner.runs.length < 16) := by decide +kernel

/-- A run that counts this many beats. -/
def counts (n : Nat) : Run := { runOfCue 1000 with follow := .beats n, followState := .counting, followRemaining := n }

/-- The runner at 100 ms with this last counted beat and these runs. -/
def beating (b : Option Nat) (runs : List Run) : State :=
  { showOf [] none runs with timeBase := 100, runner := { (showOf [] none runs).runner with lastBeat := b } }

theorem witness_BeatsAreSpacedAndCounted :
    ((beating (some 81) []).runner.lastBeat = some 81 ∧ (beating (some 81) []).timeBase < 81 + 20) ∧
      ((∀ b, (beating (some 80) [counts 2]).runner.lastBeat = some b → b + 20 ≤ (beating (some 80) [counts 2]).timeBase) ∧
        ((beating (some 80) [counts 2]).runner.runs.map (·.cue)).Nodup ∧
        ∀ r ∈ (beating (some 80) [counts 2]).runner.runs, r.followState = .counting → 2 ≤ r.followRemaining) ∧
      ((∀ b, (beating none [counts 1]).runner.lastBeat = some b → b + 20 ≤ (beating none [counts 1]).timeBase) ∧
        (beating none [counts 1]).runner.runs = [counts 1] ∧ (counts 1).followState = .counting ∧
        (counts 1).followRemaining = 1) ∧
      (let rs := [counts 1, { counts 1 with cue := 2000 }]
       ∀ b, (beating (some 80) rs).runner.lastBeat = some b → b + 20 ≤ (beating (some 80) rs).timeBase) := by
  refine ⟨by decide +kernel, ⟨fun b h => ?_, by decide +kernel, by decide +kernel⟩, ⟨fun b h => ?_, rfl, rfl, rfl⟩, fun b h => ?_⟩
  · cases h; decide
  · cases h
  · cases h; decide

theorem witness_StandbySetMovesStandby :
    Lane.p = .p ∧ (Lane.a ≠ .p ∧ State.reset.store.cue? 0 = none) ∧
      (Lane.b ≠ .p ∧ ((showOf [cueOf 9999999 []] none []).store.cue? 9999999).isSome) := by decide +kernel

theorem witness_TriggerLinesPulseAndRepeat :
    15 < 16 ∧ (State.reset.setLine 15 (.pulse 1)).line 15 = .pulse 1 ∧
      (State.reset.setLine 0 (.repeating true 1 255 21)).line 0 = .repeating true 1 255 21 ∧
      (State.reset.setLine 0 (.repeating false 1 1 21)).line 0 = .repeating false 1 1 21 ∧
      (0 < 1 ∧ 1 ≤ 1) ∧ (2 ≤ 2 ∧ 1 ≤ 1 ∧ 0 < 1 * 2) ∧ State.reset.pending = [] ∧ State.reset.runner.runs = [] := by
  decide +kernel

theorem witness_RunnerAndRelayReadsReportTheState :
    (15 < 16 ∧ 15 ≤ 15) ∧ 32 ≤ 32 ∧ (31 < 32 ∧ 16 < 17) ∧ (31 < 32 ∧ 1 ≤ 16 ∧ 16 ≤ 16) := by decide

/-- A running record in a WRAP log with one entry. -/
def logged : Record :=
  { State.reset.record with
    state := .running, logMode := some .wrap, written := 1, clock := 99999999, lost := 65535
    log := [⟨0, 0, .engine, none, none, .performanceStart .curtain⟩] }

theorem logged_ok : logged.LogOk := by
  refine ⟨rfl, fun i e h => ?_, fun h => ?_, fun h => ?_⟩
  · match i, h with
    | 0, h => cases h; rfl
    | n + 1, h => simp [logged] at h
  · cases h
  · cases h

theorem witness_RecordAndLaneReadsReportTheState :
    32 ≤ 32 ∧ 31 < 32 ∧ logged.LogOk ∧ 1 = min 8 (logged.written - max 0 (logged.written - 2048)) ∧ 3 < 4 :=
  ⟨by decide, by decide, logged_ok, by decide, by decide⟩

theorem witness_ZoneRouteSetsItsRoute :
    Lane.p = .p ∧ (Lane.a ≠ .p ∧ (32 ≤ 0 ∨ (24 ≤ 254 ∧ 254 ≠ 255))) ∧ (Lane.a ≠ .p ∧ 31 < 32 ∧ (24 < 24 ∨ 255 = 255)) := by
  decide

/-- A call of this lane and class on zones 0 and 31. -/
def callOf (l : Lane) (k : CallClass) (n : Nat) : Call := ⟨l, n, k, 0x80000001#32, -60⟩

/-- The state after power-on with Lane A's ARTIST call live and these calls waiting. -/
def calling (waiting : List Call) : State := { State.reset with calls := ⟨some ⟨callOf .a .artist 1, 5, 0⟩, waiting, 4⟩ }

theorem witness_CallOpenIsRefusedLiveOrWaiting :
    (4 ≠ 1 ∧ 4 ≠ 2 ∧ 4 ≠ 3) ∧ 3 = CallClass.showStop.code ∧ (0 : ZoneSet) = 0 ∧
      ((1 : ZoneSet) ≠ 0 ∧ Lane.a ∈ (calling []).calls.lanes) ∧
      (Lane.a ∉ State.reset.calls.lanes ∧ State.reset.calls.live = none) ∧
      (Lane.b ∉ (calling []).calls.lanes ∧ (calling []).calls.live = some ⟨callOf .a .artist 1, 5, 0⟩ ∧
        (callOf .a .artist 1).cls ≠ .showStop) ∧
      (1 = CallClass.general.code ∧ CallClass.general ≠ .showStop) := by decide +kernel

theorem witness_CallsEndByCloseAndTimeout :
    ((calling []).calls.live = some ⟨callOf .a .artist 1, 5, 0⟩ ∧ (callOf .a .artist 1).lane = .a ∧ (calling []).calls.waiting = []) ∧
      GrantedOf (calling [callOf .b .general 2, callOf .p .showStop 3]).calls.waiting [callOf .b .general 2]
        (callOf .p .showStop 3) [] ∧
      ((calling [callOf .b .general 2]).calls.waiting = [] ++ callOf .b .general 2 :: [] ∧ (callOf .b .general 2).lane = .b ∧
        ∀ x, (calling [callOf .b .general 2]).calls.live = some x → x.call.lane ≠ .b) ∧
      Lane.p ∉ (calling [callOf .b .general 2]).calls.lanes := by
  refine ⟨by decide +kernel, ⟨rfl, by decide +kernel, by decide +kernel⟩, ⟨rfl, rfl, fun x h => ?_⟩, by decide +kernel⟩
  cases h
  decide

/-- The state after power-on with this ramp in zone 31. -/
def ramping (elapsed : Nat) : State := State.reset.onZone 31 fun z => { z with ramp := some ⟨.attack, 0, 200, 150, elapsed⟩ }

theorem witness_DuckRampsMoveByTheExactLine :
    (State.reset.zone 0).ramp = none ∧
      (((ramping 148).zone 31).ramp = some ⟨.attack, 0, 200, 150, 148⟩ ∧ 148 + 1 < 150) ∧
      (((ramping 149).zone 31).ramp = some ⟨.attack, 0, 200, 150, 149⟩ ∧ 150 ≤ 149 + 1 ∧ 31 < 32) ∧ (1 ≤ 1 ∧ 1 ≤ 1) := by
  decide +kernel

theorem witness_WindowEndFindsAndReports :
    State.reset.watch.frames < 4800 ∧
      4800 ≤ ({ State.reset with watch := { State.reset.watch with frames := 4800 } } : State).watch.frames := by decide

theorem witness_AlarmsAckClearsOver : Lane.b ≠ .p ∧ (0 : ZoneSet) = 0 ∧ (0x80000000#32 : ZoneSet) ≠ 0 := by decide

theorem witness_PeakLevelIsTheExactLogarithm : 1 ≤ 1 := by decide

theorem witness_PerformanceArmsAndStarts :
    (3 ≠ 1 ∧ 3 ≠ 2) ∧ (2 = 2 ∧ 3600000 < 3600001) ∧ (2 = 1 ∨ 2 = 2 ∧ 3600000 ≤ 3600000) ∧
      ((1 = 1 ∨ 1 = 2 ∧ 3600001 ≤ 3600000) ∧
        answerOn .p (after (.arm .p 0 1 3600001) State.reset) = some (0, [2, 1, 0, 0, 0, 1])) ∧
      (inState .finished State.reset).record.state ≠ .clear ∧ (State.reset.record.state = .clear ∧ 1 ≤ 1) ∧
      (let s := { State.reset with record := { State.reset.record with state := .armed, startMode := some (.delay 5) } }
       s.record.state = .armed ∧ s.record.startMode = some (.delay 5)) := by decide +kernel

/-- The state after power-on with these intervals in a record in this state. -/
def paused (p : PerfState) (xs : List Interval) : State :=
  { State.reset with record := { State.reset.record with state := p, intervals := xs } }

theorem witness_PerformancePausesFinishesAndClears :
    (State.reset.record.state ≠ .running ∧ State.reset.record.state ≠ .interval ∧ State.reset.record.state = .clear) ∧
      (let s := paused .running [⟨1, 0, some 1⟩, ⟨2, 2, some 3⟩, ⟨3, 4, some 5⟩, ⟨4, 6, some 7⟩]
       s.record.state = .running ∧ 4 ≤ s.record.intervals.length ∧ ∀ x ∈ s.record.intervals, x.endTime.isSome) ∧
      (let s := paused .running [⟨1, 0, some 1⟩, ⟨2, 2, some 3⟩, ⟨3, 4, some 5⟩]
       s.record.state = .running ∧ s.record.intervals.length < 4) ∧
      (let s := paused .interval [⟨1, 0, some 1⟩, ⟨2, 2, none⟩]
       s.record.state = .interval ∧ s.record.intervals = [⟨1, 0, some 1⟩] ++ [Interval.mk 2 2 none] ∧
         ∀ x ∈ ([⟨1, 0, some 1⟩] : List Interval), x.endTime.isSome) ∧
      (inState .armed State.reset).record.state = .armed ∧ (inState .finished State.reset).record.state = .finished := by
  decide +kernel

theorem witness_EngineResetStopsMotionAndKeepsTheShow : Lane.a ≠ .p ∧ Lane.b ≠ .p := by decide

theorem witness_MapAndLevelsStayInRange :
    ∃ s t : State, MapOk s ∧ LevelsOk s ∧ step s = .next t := by
  refine ⟨{ State.reset.onPoint 5 (fun q => { q with base := 120, trim := -600 }) with
    inputMap := .tabulate _ fun k => 39 - k, pending := [.inputSwap .a 0 0 39] }, _, ?_, fun p => ?_, rfl⟩
  · unfold MapOk; decide +kernel
  have h : ∀ q : Point, q = State.reset.point p ∨ q = { State.reset.point p with base := 120, trim := -600 } →
      Config.off ≤ q.base ∧ q.base ≤ Config.maxLevel ∧ Config.minTrim ≤ q.trim ∧ q.trim ≤ Config.maxLevel := by
    have e : State.reset.point p = {} := by
      by_cases hp : p < Config.points
      · exact Table.getD_replicate _ _ _ _ hp
      · exact Table.getD_of_le _ _ _ (Nat.le_of_not_lt hp)
    rw [e]
    rintro q (rfl | rfl) <;> decide
  apply h
  have e := State.point_onPoint State.reset 5 p fun q => { q with base := 120, trim := -600 }
  by_cases hp : p = 5
  · right
    subst hp
    exact e.trans (by simp [show (5 : Nat) < Config.points by decide])
  · left
    exact e.trans (by simp [hp])

theorem witness_StandbyIsOfTheStackAndRunsAreDistinct :
    ∃ s t : State, StackOk s ∧ RunsOk s ∧ step s = .next t := by
  refine ⟨{ showOf [cueOf 1 [], cueOf 2 []] (some 2) [counts 2, runOfCue 1] with pending := [.go .a 0 none] }, _,
    ⟨by decide +kernel, fun c h => ?_⟩, ⟨by decide +kernel, by decide +kernel⟩, rfl⟩
  cases h
  exact ⟨cueOf 2 [], by decide +kernel, rfl⟩

theorem witness_CallsStayOnePerLane : ∃ s t : State, CallsOk s ∧ step s = .next t := by
  refine ⟨{ calling [callOf .b .general 2] with
    zones := .tabulate _ fun z => { State.reset.zone z with targeted := (0x80000001#32 : ZoneSet).getLsbD z }
    pending := [.callClose .a 0] }, _, ⟨by decide +kernel, fun h => ?_, by decide +kernel⟩, rfl⟩
  cases h

theorem witness_LogAndCountersStayInOrder : ∃ s t : State, RecordOk s ∧ LanesOk s ∧ step s = .next t := by
  refine ⟨{ State.reset.onLane .a (fun x => { x with dropped := 255 }) with record := logged, pending := [.finish .a 0] }, _,
    ⟨logged_ok, ?_, ?_, ?_⟩, fun l => ?_, rfl⟩
  · unfold Counters.Ok; decide +kernel
  · decide +kernel
  · decide +kernel
  · cases l <;> (unfold LaneState.CountsOk; decide +kernel)

theorem witness_MembershipsAndSlotsAgree : ∃ s t : State, FadesOk s ∧ step s = .next t :=
  ⟨{ fading with pending := [.fadeAdvance] }, _, fading_fadesOk, rfl⟩

end Sys2Proof.Tests
end

section
/-! The level table's arithmetic (chapter 1): the effective level (R3), the gain (R5) and scaling by a gain (R7). -/

namespace Sys2Proof.Machine

/-! ## The effective level -/

theorem effective_of_base_off {b : Int} (t : Int) (h : b ≤ -900) : effective b t = -900 := if_pos h

theorem effective_of_base_on {b : Int} (t : Int) (h : -900 < b) :
    effective b t = max (-900) (min 120 (b + t)) := if_neg (Int.not_le.mpr h)

theorem effective_bounds (b t : Int) : -900 ≤ effective b t ∧ effective b t ≤ 120 := by
  by_cases h : b ≤ -900
  · simp [effective_of_base_off t h]
  · rw [effective_of_base_on t (Int.not_le.mp h)]
    omega

/-! ## Scaling by a gain -/

/-- Integer division by the unit gain is the floor of the rational quotient. -/
theorem scale_eq_floor (x : Int) (g : Nat) : scale x g = ⌊((x * g + 2 ^ 19 : Int) : ℚ) / 2 ^ 20⌋ := by
  have quotient : scale x g = ⌊((x * g + 2 ^ 19 : Int) : ℚ) / (2 ^ 20 : Nat)⌋ :=
    (Rat.floor_intCast_div_natCast (x * g + 2 ^ 19) (2 ^ 20)).symm
  rw [quotient, Nat.cast_pow, Nat.cast_ofNat]

theorem scale_eq_floor_add_half (x : Int) (g : Nat) : scale x g = ⌊((x * g : Int) : ℚ) / 2 ^ 20 + 1 / 2⌋ := by
  rw [scale_eq_floor]
  congr 1
  push_cast
  ring

theorem scale_unit (x : Int) : scale x 1048576 = x := by
  unfold scale
  omega

theorem scale_zero (x : Int) : scale x 0 = 0 := by simp [scale]

/-- Settles O11, from the branches of `effective` and the floor form of `scale`. -/
theorem effectiveLevelAndScaleFollowTheirRules : Obligations.EffectiveLevelAndScaleFollowTheirRules := by
  refine ⟨⟨fun b t => ⟨effective_of_base_off t, effective_of_base_on t, effective_bounds b t⟩, fun s p => ⟨rfl, rfl⟩⟩,
    fun x g => ⟨scale_eq_floor x g, scale_eq_floor_add_half x g⟩, fun x => ⟨scale_unit x, scale_zero x⟩, ?_⟩
  decide

/-! ## The binary search -/

/-- The search finds the boundary of a predicate that holds up to some number and of none above it. -/
theorem le_searchGreatest_iff {p : Nat → Bool} (down : ∀ a b, a ≤ b → p b → p a) (g k acc : Nat)
    (lo : p acc) (hi : ¬ p (acc + 2 ^ k)) : g ≤ searchGreatest p k acc ↔ p g := by
  induction k generalizing acc with
  | zero =>
    exact ⟨fun h => down g acc h lo, fun hg => Nat.le_of_not_lt fun h => hi (down (acc + 1) g h hg)⟩
  | succ k ih =>
    rw [searchGreatest]
    split
    · next mid => exact ih (acc + 2 ^ k) mid (by rwa [Nat.add_assoc, ← Nat.two_mul, ← Nat.pow_succ'])
    · next mid => exact ih acc lo mid

/-! ## The gain -/

/-- The real number that the gain of a level rounds (R5). -/
noncomputable def exactGain (e : Int) : ℝ := (2 : ℝ) ^ 20 * (10 : ℝ) ^ ((e : ℝ) / 200)

theorem exactGain_pos (e : Int) : 0 < exactGain e := by
  unfold exactGain
  positivity

theorem exactGain_mono {e e' : Int} (h : e ≤ e') : exactGain e ≤ exactGain e' := by
  have hd : (e : ℝ) / 200 ≤ (e' : ℝ) / 200 := by gcongr
  have hp : (10 : ℝ) ^ ((e : ℝ) / 200) ≤ (10 : ℝ) ^ ((e' : ℝ) / 200) :=
    Real.rpow_le_rpow_of_exponent_le (by norm_num) hd
  unfold exactGain
  gcongr

/-- The 200th power clears the fraction in the exponent. -/
theorem two_mul_exactGain_pow (e : Int) : (2 * exactGain e) ^ 200 = (2 : ℝ) ^ 4200 * (10 : ℝ) ^ e := by
  have root : ((10 : ℝ) ^ ((e : ℝ) / 200)) ^ 200 = (10 : ℝ) ^ e := by
    rw [← Real.rpow_natCast, ← Real.rpow_mul (by norm_num), ← Real.rpow_intCast]
    norm_num
  rw [exactGain, ← mul_assoc, ← pow_succ', mul_pow, root, ← pow_mul]

/-- The comparison in whole numbers, read in the reals. -/
theorem gainReaches_iff_pow_le (e : Int) (g : Nat) :
    gainReaches e g ↔ ((2 * g - 1 : Nat) : ℝ) ^ 200 ≤ (2 : ℝ) ^ 4200 * (10 : ℝ) ^ e := by
  unfold gainReaches
  split
  · next h =>
    obtain ⟨n, rfl⟩ := Int.eq_ofNat_of_zero_le h
    simp only [decide_eq_true_eq, Int.toNat_natCast, zpow_natCast]
    exact_mod_cast Iff.rfl
  · next h =>
    obtain ⟨n, hn⟩ := Int.eq_ofNat_of_zero_le (show 0 ≤ -e by omega)
    obtain rfl : e = -n := by omega
    simp only [decide_eq_true_eq, neg_neg, Int.toNat_natCast, zpow_neg, zpow_natCast]
    rw [← div_eq_mul_inv, le_div_iff₀ (by positivity)]
    exact_mod_cast Iff.rfl

theorem gainReaches_iff_le_floor (e : Int) (g : Nat) : gainReaches e g ↔ (g : Int) ≤ ⌊exactGain e + 1 / 2⌋ := by
  have pos := exactGain_pos e
  rw [gainReaches_iff_pow_le, ← two_mul_exactGain_pow,
    pow_le_pow_iff_left₀ (Nat.cast_nonneg _) (by positivity) (by norm_num), Int.le_floor]
  cases g with
  | zero => exact iff_of_true (by simpa using pos.le) (by push_cast; linarith)
  | succ n =>
    rw [show 2 * (n + 1) - 1 = 2 * n + 1 by omega]
    push_cast
    constructor <;> intro h <;> linarith

theorem gainReaches_mono {e e' : Int} (he : e ≤ e') {a b : Nat} (hab : a ≤ b) (h : gainReaches e b) :
    gainReaches e' a := by
  rw [gainReaches_iff_le_floor] at h ⊢
  calc (a : Int) ≤ b := by exact_mod_cast hab
    _ ≤ ⌊exactGain e + 1 / 2⌋ := h
    _ ≤ ⌊exactGain e' + 1 / 2⌋ := Int.floor_mono (by linarith [exactGain_mono he])

/-- The search range suffices: the gain of the greatest level is below 2²². -/
theorem not_gainReaches_searchLimit {e : Int} (h : e ≤ 120) : ¬ gainReaches e (0 + 2 ^ 22) := fun hr =>
  absurd (gainReaches_mono h le_rfl hr) (by decide +kernel)

theorem gain_of_off {e : Int} (h : e ≤ -900) : gain e = 0 := if_pos h

theorem le_gain_iff {e : Int} (lo : -899 ≤ e) (hi : e ≤ 120) (g : Nat) : g ≤ gain e ↔ gainReaches e g := by
  have start : gainReaches e 0 := by
    rw [gainReaches_iff_le_floor, Int.le_floor]
    push_cast
    linarith [exactGain_pos e]
  rw [gain, if_neg (by simp only [Config.off]; omega)]
  exact le_searchGreatest_iff (fun a b => gainReaches_mono le_rfl) g 22 0 start (not_gainReaches_searchLimit hi)

theorem gain_eq_floor {e : Int} (lo : -899 ≤ e) (hi : e ≤ 120) : (gain e : Int) = ⌊exactGain e + 1 / 2⌋ := by
  have nonneg : 0 ≤ ⌊exactGain e + 1 / 2⌋ := Int.floor_nonneg.mpr (by linarith [exactGain_pos e])
  obtain ⟨n, hn⟩ := Int.eq_ofNat_of_zero_le nonneg
  have same : gain e = n := eq_of_forall_le_iff fun g => by
    rw [le_gain_iff lo hi, gainReaches_iff_le_floor, hn, Int.ofNat_le]
  rw [hn, same]

theorem gain_mono {e e' : Int} (h : e ≤ e') (hi : e' ≤ 120) : gain e ≤ gain e' := by
  by_cases off : e ≤ -900
  · rw [gain_of_off off]
    exact Nat.zero_le _
  · have reaches : gainReaches e (gain e) := (le_gain_iff (by omega) (by omega) _).mp le_rfl
    exact (le_gain_iff (by omega) hi _).mpr (gainReaches_mono h le_rfl reaches)

/-- Settles O12: the search ends at the greatest integer that `gainReaches` admits, and that is the rounded real. -/
theorem gainIsTheNearestInteger : Obligations.GainIsTheNearestInteger :=
  ⟨gain_of_off le_rfl, fun _ lo hi => gain_eq_floor lo hi, by decide +kernel, by decide +kernel,
    fun _ _ _ h hi => gain_mono h hi⟩

end Sys2Proof.Machine
end

section
/-! The output masks (2.4): MIX MASK case by case (R32). -/

namespace Sys2Proof.Machine

/-! ## The codes of ON and OFF -/

theorem onOfCode_onCode (on : Bool) : onOfCode (onCode on) = some on := by cases on <;> rfl

theorem onOfCode_eq_none {v : Nat} (notOn : v ≠ 1) (notOff : v ≠ 2) : onOfCode v = none := by
  unfold onOfCode
  split
  · exact absurd rfl notOn
  · exact absurd rfl notOff
  · rfl

theorem exists_onCode_eq {v : Nat} (h : v = 1 ∨ v = 2) : ∃ on, v = onCode on := by
  rcases h with rfl | rfl
  · exact ⟨true, rfl⟩
  · exact ⟨false, rfl⟩

theorem decide_onCode_eq_one (on : Bool) : decide (onCode on = 1) = on := by cases on <;> rfl

/-! ## MIX MASK -/

theorem exec_mixMask_p (tag : Byte) (m v : Nat) (s : State) :
    exec (.mixMask .p tag m v) s = .next (s.answer (.mixMask .p tag m v) .refusedRole []) := by
  rw [exec, execMixMask, fullOnly_p]

section
variable {l : Lane} (full : l ≠ .p) (tag : Byte) {m : Nat} (s : State)
include full

theorem exec_mixMask_outOfRange (above : Config.mixes ≤ m) (v : Nat) :
    exec (.mixMask l tag m v) s = .next (s.answer (.mixMask l tag m v) .outOfRange []) := by
  rw [exec, execMixMask, fullOnly_full l _ _ _ full, if_pos above]

theorem exec_mixMask_malformed (below : m < Config.mixes) {v : Nat} (bad : onOfCode v = none) :
    exec (.mixMask l tag m v) s = .next (s.answer (.mixMask l tag m v) .malformed []) := by
  rw [exec, execMixMask, fullOnly_full l _ _ _ full, if_neg (Nat.not_le.mpr below), bad]

theorem exec_mixMask_served (below : m < Config.mixes) (on : Bool) :
    exec (.mixMask l tag m (onCode on)) s =
      .next ((s.setMask m on).answer (.mixMask l tag m (onCode on)) .ok
        (be 1 m ++ be 1 (onCode (s.masks.getD m false)) ++ be 1 (onCode on))) := by
  rw [exec, execMixMask, fullOnly_full l _ _ _ full, if_neg (Nat.not_le.mpr below), onOfCode_onCode]

end

theorem State.mask_setMask_of_lt (s : State) (m : Nat) (on : Bool) {k : Nat} (below : k < Config.mixes) :
    (s.setMask m on).masks.getD k false = if k = m then on else s.masks.getD k false := by
  simp only [State.mask_setMask, below, and_true]

/-- A mask set and the request answered: lanes and masks alone may differ. -/
theorem State.answer_setMask_frame (s : State) (m : Nat) (on : Bool) (i : Instr) (st : Status) (b : List Byte) :
    (s.setMask m on).answer i st b =
      { s with lanes := ((s.setMask m on).answer i st b).lanes, masks := ((s.setMask m on).answer i st b).masks } := by
  rw [State.answer_masks]
  exact State.answer_frame _ i st b

/-- Settles O17, one case of MIX MASK for each clause. -/
theorem mixMaskSetsItsFlag : Obligations.MixMaskSetsItsFlag := by
  intro l tag m v s
  refine ⟨?role, fun full above => ?range, fun full below notOn notOff => ?malformed, fun full below code => ?served⟩
  case role =>
    rintro rfl
    exact Refused.of_answer rfl (exec_mixMask_p tag m v s)
  case range => exact Refused.of_answer rfl (exec_mixMask_outOfRange full tag s above v)
  case malformed =>
    exact Refused.of_answer rfl (exec_mixMask_malformed full tag s below (onOfCode_eq_none notOn notOff))
  case served =>
    obtain ⟨on, rfl⟩ := exists_onCode_eq code
    refine ⟨_, exec_mixMask_served full tag s below on, fun k hk => ?_,
      Answered.of_answer rfl (Noticed.refl s) _ _, State.answer_setMask_frame s m on _ _ _⟩
    rw [State.answer_masks, decide_onCode_eq_one]
    exact State.mask_setMask_of_lt s m on hk

end Sys2Proof.Machine
end

section
/-! The fade law (3.2): a move's progress, its shape under each curve (R42), and the base it gives (R43). -/

namespace Sys2Proof.Machine

/-! ## Progress -/

@[simp] theorem progress_zero (d : Nat) : progress 0 d = 0 := by simp [progress]

theorem progress_self {d : Nat} (pos : 1 ≤ d) : progress d d = 65536 := by
  rw [progress, Nat.mul_div_cancel_left _ pos, min_self]

/-! ## The curves -/

theorem square_div_mono {a b : Nat} (h : a ≤ b) : a * a / 65536 ≤ b * b / 65536 :=
  Nat.div_le_div_right (Nat.mul_self_le_mul_self h)

/-- The square of what is below 256 is below 65,536. -/
theorem square_div_eq_zero {a : Nat} (h : a < 256) : a * a / 65536 = 0 :=
  Nat.div_eq_of_lt (Nat.mul_self_lt_mul_self h)

namespace Curve

@[simp] theorem shape_zero (c : Curve) : c.shape 0 = 0 := by cases c <;> rfl

@[simp] theorem shape_full (c : Curve) : c.shape 65536 = 65536 := by cases c <;> rfl

theorem shape_mono (c : Curve) {p q : Nat} (h : p ≤ q) : c.shape p ≤ c.shape q := by
  cases c with
  | linear => exact h
  | late => exact square_div_mono h
  | early => exact Nat.sub_le_sub_left (square_div_mono (Nat.sub_le_sub_left h 65536)) 65536

theorem late_shape_eq_zero {p : Nat} (h : p < 256) : late.shape p = 0 := square_div_eq_zero h

theorem early_shape_eq_full {p : Nat} (h : 65536 - p < 256) : early.shape p = 65536 := by
  rw [shape, square_div_eq_zero h]

end Curve

/-! ## The base -/

@[simp] theorem fadeBase_zero (l0 l1 : Int) : fadeBase l0 l1 0 = l0 := by simp [fadeBase]

@[simp] theorem fadeBase_full (l0 l1 : Int) : fadeBase l0 l1 65536 = l1 := by
  rw [fadeBase, Nat.cast_ofNat, Int.mul_tdiv_cancel _ (by decide), add_sub_cancel]

@[simp] theorem fadeBase_self (l : Int) (p : Nat) : fadeBase l l p = l := by simp [fadeBase]

/-- Truncation toward zero is symmetric, so a falling move mirrors a rising one. -/
theorem fadeBase_neg (l0 l1 : Int) (p : Nat) : fadeBase (-l0) (-l1) p = -fadeBase l0 l1 p := by
  rw [fadeBase, fadeBase, show (-l1 - -l0) * (p : Int) = -((l1 - l0) * p) by ring, Int.neg_tdiv, neg_add]

/-- In a rising move truncation toward zero rounds down. -/
theorem fadeBase_of_le {l0 l1 : Int} (rises : l0 ≤ l1) (p : Nat) : fadeBase l0 l1 p = l0 + (l1 - l0) * p / 65536 := by
  rw [fadeBase, Int.tdiv_eq_ediv_of_nonneg (mul_nonneg (sub_nonneg.mpr rises) (Int.natCast_nonneg p))]

theorem fadeBase_mono {l0 l1 : Int} (rises : l0 ≤ l1) {p q : Nat} (h : p ≤ q) : fadeBase l0 l1 p ≤ fadeBase l0 l1 q := by
  have numerators : (l1 - l0) * (p : Int) ≤ (l1 - l0) * q :=
    mul_le_mul_of_nonneg_left (Int.ofNat_le.mpr h) (sub_nonneg.mpr rises)
  rw [fadeBase_of_le rises, fadeBase_of_le rises]
  exact Int.add_le_add_left (Int.ediv_le_ediv (by decide) numerators) l0

theorem fadeBase_le_line {l0 l1 : Int} (rises : l0 ≤ l1) (p : Nat) :
    65536 * (fadeBase l0 l1 p - l0) ≤ (l1 - l0) * p := by
  rw [fadeBase_of_le rises, add_sub_cancel_left]
  exact Int.mul_ediv_self_le (by decide)

/-- The ends of a move are its bases at progress 0 and 65,536, so the bounds are instances of `fadeBase_mono`. -/
theorem fadeBase_rises {l0 l1 : Int} (rises : l0 ≤ l1) {p q : Nat} (h : p ≤ q) (hq : q ≤ 65536) :
    l0 ≤ fadeBase l0 l1 p ∧ fadeBase l0 l1 p ≤ fadeBase l0 l1 q ∧ fadeBase l0 l1 q ≤ l1 ∧
      65536 * (fadeBase l0 l1 p - l0) ≤ (l1 - l0) * p := by
  have start := fadeBase_mono rises (Nat.zero_le p)
  have target := fadeBase_mono rises hq
  rw [fadeBase_zero] at start
  rw [fadeBase_full] at target
  exact ⟨start, fadeBase_mono rises h, target, fadeBase_le_line rises p⟩

theorem fadeBase_falls {l0 l1 : Int} (falls : l1 ≤ l0) {p q : Nat} (h : p ≤ q) (hq : q ≤ 65536) :
    l1 ≤ fadeBase l0 l1 q ∧ fadeBase l0 l1 q ≤ fadeBase l0 l1 p ∧ fadeBase l0 l1 p ≤ l0 ∧
      (l1 - l0) * p ≤ 65536 * (fadeBase l0 l1 p - l0) := by
  obtain ⟨start, between, target, line⟩ := fadeBase_rises (neg_le_neg falls) h hq
  rw [fadeBase_neg] at start between target line
  rw [fadeBase_neg] at between
  exact ⟨neg_le_neg_iff.mp target, neg_le_neg_iff.mp between, neg_le_neg_iff.mp start, by linarith⟩

/-- Settles O22: the rising moves bound the falling ones, which mirror them. -/
theorem fadeLawShapesProgressAndStops : Obligations.FadeLawShapesProgressAndStops := by
  refine ⟨fun _ _ _ => rfl, fun d pos => ⟨progress_zero d, progress_self pos⟩, fun _ => ⟨rfl, rfl, rfl⟩,
    fun c => ⟨c.shape_zero, c.shape_full⟩, fun c _ _ h _ => c.shape_mono h,
    fun _ _ near => Curve.early_shape_eq_full near, fun _ near => Curve.late_shape_eq_zero near, ?base⟩
  intro l0 l1 p q h hq
  exact ⟨rfl, fadeBase_full l0 l1, fadeBase_self l0 p, fun rises => fadeBase_rises rises h hq,
    fun falls => fadeBase_falls falls h hq⟩

end Sys2Proof.Machine
end

section
/-! The cue stack: the next cue after a number (4.1, R62), and STANDBY SET case by case (4.8, R75). -/

namespace Sys2Proof.Machine

/-! ## The next cue -/

theorem Store.nextAfter_eq_none_iff (st : Store) (x : Nat) :
    st.nextAfter x = none ↔ ∀ c ∈ st.cues, c.number ≤ x := by
  simp [Store.nextAfter]

/-- In an ascending stack the first cue above `x` is below every other one. -/
theorem Store.nextAfter_le {st : Store} (ascending : st.cues.Pairwise fun c d => c.number < d.number) {x n : Nat}
    (next : st.nextAfter x = some n) {c : Cue} (mem : c ∈ st.cues) (above : x < c.number) : n ≤ c.number := by
  obtain ⟨first, found, rfl⟩ := Option.map_eq_some_iff.mp next
  obtain ⟨_, before, after, split, skipped⟩ := List.find?_eq_some_iff_append.mp found
  rw [split] at ascending mem
  obtain ⟨_, tail, _⟩ := List.pairwise_append.mp ascending
  rcases List.mem_append.mp mem with early | late
  · exact absurd (skipped c early) (by simp [above])
  · rcases List.mem_cons.mp late with rfl | later
    · exact le_rfl
    · exact (List.rel_of_pairwise_cons tail later).le

theorem Store.nextAfter_eq_some_iff {st : Store} (ascending : st.cues.Pairwise fun c d => c.number < d.number)
    (x n : Nat) :
    st.nextAfter x = some n ↔
      (∃ c ∈ st.cues, c.number = n ∧ x < n) ∧ ∀ c ∈ st.cues, x < c.number → n ≤ c.number := by
  constructor
  · intro next
    obtain ⟨above, c, mem, number⟩ := st.nextAfter_above x n next
    exact ⟨⟨c, mem, number, above⟩, fun _ => Store.nextAfter_le ascending next⟩
  · rintro ⟨⟨c, mem, rfl, above⟩, least⟩
    cases next : st.nextAfter x with
    | none => exact absurd above (Nat.not_lt.mpr ((st.nextAfter_eq_none_iff x).mp next c mem))
    | some m =>
      obtain ⟨above', d, mem', rfl⟩ := st.nextAfter_above x m next
      exact congrArg some (le_antisymm (Store.nextAfter_le ascending next mem above) (least d mem' above'))

/-- Settles O25: the first cue above X is the least, because the stack ascends. -/
theorem nextCueIsTheLeastAbove : Obligations.NextCueIsTheLeastAbove := fun st x ascending =>
  ⟨Store.nextAfter_eq_some_iff ascending x, st.nextAfter_eq_none_iff x⟩

/-! ## Standby set to a value -/

/-- Of the runner only standby is set; lanes alone may differ besides. -/
theorem State.setStandby_frame (x : Option Nat) (s : State) :
    s.setStandby x =
      { s with lanes := (s.setStandby x).lanes, runner := { s.runner with standby := x } } := by
  unfold State.setStandby
  split <;> rfl

/-- STANDBY is added to every lane exactly if the value changes (R72). -/
theorem Noticed.setStandby (x : Option Nat) (s : State) :
    Noticed s (s.setStandby x) (if s.runner.standby = x then [] else [.standby]) := by
  have moved : Noticed s { s with runner := { s.runner with standby := x } } [] := (Noticed.refl s).of_lanes rfl
  unfold State.setStandby
  split
  · exact moved
  · exact moved.noticeAll .standby

theorem State.answer_setStandby_frame (x : Option Nat) (s : State) (i : Instr) (st : Status) (b : List Byte) :
    (s.setStandby x).answer i st b =
      { s with lanes := ((s.setStandby x).answer i st b).lanes, runner := { s.runner with standby := x } } :=
  calc (s.setStandby x).answer i st b
      = { s.setStandby x with lanes := ((s.setStandby x).answer i st b).lanes } := State.answer_frame _ i st b
    _ = { s with lanes := ((s.setStandby x).answer i st b).lanes, runner := { s.runner with standby := x } } :=
      congrArg (fun u : State => { u with lanes := ((s.setStandby x).answer i st b).lanes }) (State.setStandby_frame x s)

/-! ## STANDBY SET -/

theorem exec_standbySet_p (tag : Byte) (c : Nat) (s : State) :
    exec (.standbySet .p tag c) s = .next (s.answer (.standbySet .p tag c) .refusedRole []) := by
  rw [exec, execStandbySet, fullOnly_p]

section
variable {l : Lane} (full : l ≠ .p) (tag : Byte) {c : Nat} {s : State}
include full

theorem exec_standbySet_notFound (absent : s.store.cue? c = none) :
    exec (.standbySet l tag c) s = .next (s.answer (.standbySet l tag c) .notFound []) := by
  rw [exec, execStandbySet, fullOnly_full l _ _ _ full, absent]
  rfl

theorem exec_standbySet_served (held : (s.store.cue? c).isSome) :
    exec (.standbySet l tag c) s =
      .next ((s.setStandby (some c)).answer (.standbySet l tag c) .ok (cueBytes s.runner.standby ++ be 3 c)) := by
  rw [exec, execStandbySet, fullOnly_full l _ _ _ full, if_pos held]

end

/-- Settles O40, one case of STANDBY SET for each clause. -/
theorem standbySetMovesStandby : Obligations.StandbySetMovesStandby := by
  intro l tag c s
  refine ⟨?role, fun full absent => ?notFound, fun full held => ?served⟩
  case role =>
    rintro rfl
    exact Refused.of_answer rfl (exec_standbySet_p tag c s)
  case notFound => exact Refused.of_answer rfl (exec_standbySet_notFound full tag absent)
  case served =>
    exact ⟨_, exec_standbySet_served full tag held, Answered.of_answer rfl (Noticed.setStandby (some c) s) _ _,
      State.answer_setStandby_frame (some c) s _ _ _⟩

end Sys2Proof.Machine
end

section
/-! The peak level of a relay window (7.2): the search over 200th powers finds the logarithm of R128. -/

namespace Sys2Proof.Machine

/-! ## The binary search inside its range -/

/-- Below the end of its range the search decides the predicate, even where the predicate still holds at that end. -/
theorem le_searchGreatest_iff_of_lt {p : Nat → Bool} (down : ∀ a b, a ≤ b → p b → p a) (g k acc : Nat)
    (lo : p acc) (below : g < acc + 2 ^ k) : g ≤ searchGreatest p k acc ↔ p g := by
  induction k generalizing acc with
  | zero =>
    have le : g ≤ acc := Nat.le_of_lt_succ below
    exact iff_of_true le (down g acc le lo)
  | succ k ih =>
    rw [searchGreatest]
    split
    · next mid => exact ih (acc + 2 ^ k) mid (by rwa [Nat.add_assoc, ← Nat.two_mul, ← Nat.pow_succ'])
    · next mid => exact le_searchGreatest_iff down g k acc lo mid

/-! ## The logarithm -/

/-- The real number that the peak level rounds down and clamps (R128). -/
noncomputable def exactPeakLevel (peak : Nat) : ℝ := 200 * Real.logb 10 ((peak : ℝ) / 8388607)

theorem exactPeakLevel_eq_logb_pow (peak : Nat) :
    exactPeakLevel peak = Real.logb 10 (((peak : ℝ) / 8388607) ^ 200) := by
  rw [exactPeakLevel, Real.logb_pow, Nat.cast_ofNat]

/-- The comparison in whole numbers says that the logarithm is at least `-k`. -/
theorem peakReaches_iff_le_floor {peak : Nat} (pos : 1 ≤ peak) (k : Nat) :
    peakReaches peak k ↔ -(k : Int) ≤ ⌊exactPeakLevel peak⌋ := by
  have ratio_pos : 0 < ((peak : ℝ) / 8388607) ^ 200 := by
    have : (0 : ℝ) < peak := Nat.cast_pos.mpr pos
    positivity
  have powers : ((8388607 : ℝ) ^ 200 ≤ (peak : ℝ) ^ 200 * 10 ^ k) ↔
      (10 : ℝ) ^ ((-(k : Int) : Int) : ℝ) ≤ ((peak : ℝ) / 8388607) ^ 200 := by
    rw [Real.rpow_intCast, zpow_neg, zpow_natCast, div_pow, inv_le_iff_one_le_mul₀ (by positivity),
      div_mul_eq_mul_div, one_le_div (by positivity)]
  rw [Int.le_floor, exactPeakLevel_eq_logb_pow, Real.le_logb_iff_rpow_le (by norm_num) ratio_pos, ← powers, peakReaches,
    decide_eq_true_eq]
  exact_mod_cast Iff.rfl

/-! ## The search for the peak level -/

/-- The predicate that `peakLevel` searches by: `k` is 0, or the exponent before it does not bring the peak to full scale. -/
def peakFallsShort (peak k : Nat) : Bool := k == 0 || !peakReaches peak (k - 1)

theorem peakLevel_of_pos {peak : Nat} (pos : 1 ≤ peak) :
    peakLevel peak = -((min 900 (searchGreatest (peakFallsShort peak) 10 0) : Nat) : Int) :=
  if_neg (Nat.one_le_iff_ne_zero.mp pos)

theorem peakFallsShort_iff {peak : Nat} (pos : 1 ≤ peak) (k : Nat) :
    peakFallsShort peak k ↔ k = 0 ∨ ⌊exactPeakLevel peak⌋ ≤ -(k : Int) := by
  cases k with
  | zero => exact iff_of_true rfl (.inl rfl)
  | succ k =>
    have unfolded : peakFallsShort peak (k + 1) ↔ ¬ peakReaches peak k := by simp [peakFallsShort]
    rw [unfolded, peakReaches_iff_le_floor pos]
    omega

theorem peakFallsShort_down {peak : Nat} (pos : 1 ≤ peak) (a b : Nat) (h : a ≤ b) :
    peakFallsShort peak b → peakFallsShort peak a := by
  rw [peakFallsShort_iff pos, peakFallsShort_iff pos]
  omega

/-- The search covers the 900 levels of R128, though for the smallest peaks its predicate holds past its range. -/
theorem le_peakSearch_iff {peak : Nat} (pos : 1 ≤ peak) {k : Nat} (h : k ≤ 900) :
    k ≤ searchGreatest (peakFallsShort peak) 10 0 ↔ k = 0 ∨ ⌊exactPeakLevel peak⌋ ≤ -(k : Int) := by
  rw [← peakFallsShort_iff pos]
  exact le_searchGreatest_iff_of_lt (peakFallsShort_down pos) k 10 0 rfl (by omega)

theorem peakLevel_eq_clamp_floor {peak : Nat} (pos : 1 ≤ peak) :
    peakLevel peak = max (-900) (min 0 ⌊exactPeakLevel peak⌋) := by
  rw [peakLevel_of_pos pos]
  have search := fun k => le_peakSearch_iff pos (k := k)
  generalize searchGreatest (peakFallsShort peak) 10 0 = found at search ⊢
  rcases Nat.lt_or_ge found 900 with inside | atEnd
  · have reached := (search found inside.le).mp le_rfl
    have next := mt (search (found + 1) inside).mpr (Nat.not_succ_le_self found)
    omega
  · have reached := (search 900 le_rfl).mp atEnd
    omega

/-- Settles O51: the search ends at the rounded logarithm, and the window's record and SILENT are built from it. -/
theorem peakLevelIsTheExactLogarithm : Obligations.PeakLevelIsTheExactLogarithm :=
  ⟨fun _ pos => peakLevel_eq_clamp_floor pos, rfl, by decide +kernel, fun _ _ => ⟨rfl, rfl⟩⟩

end Sys2Proof.Machine
end

section
/-! GOOD_FRAME (10.2, R178): the codes a lane permits, the requests that bodies read as, and the frame taken step by step. -/

namespace Sys2Proof

/-! ## Codes and roles (10.5, R181) -/

theorem isRequestCode_iff (c : Byte) :
    isRequestCode c = true ↔ c.toNat ∈ anyLaneCodes ∨ c.toNat ∈ fullLaneCodes := by
  simp [isRequestCode]

theorem rolePermits_iff (l : Lane) (c : Byte) :
    rolePermits l c = true ↔ c.toNat ∈ anyLaneCodes ∨ (l ≠ .p ∧ c.toNat ∈ fullLaneCodes) := by
  cases l with
  | a => simpa [rolePermits] using isRequestCode_iff c
  | b => simpa [rolePermits] using isRequestCode_iff c
  | p => simp [rolePermits]

theorem isRequestCode_of_rolePermits {l : Lane} {c : Byte} (permits : rolePermits l c = true) :
    isRequestCode c = true :=
  (isRequestCode_iff c).mpr (((rolePermits_iff l c).mp permits).imp_right And.right)

theorem not_mem_anyLaneCodes_of_mem_fullLaneCodes : ∀ n ∈ fullLaneCodes, n ∉ anyLaneCodes := by decide

/-! ## A body reads as a request, never as an event (R178, R180) -/

/-- What a body reads as is a command that a lane frame carries. -/
def ReadsRequest (o : Option Instr) : Prop := ∀ i, o = some i → requestFrame i ≠ none

theorem ReadsRequest.none : ReadsRequest none := nofun

theorem ReadsRequest.some {i : Instr} (framed : requestFrame i ≠ .none) : ReadsRequest (some i) := by
  rintro _ ⟨⟩
  exact framed

theorem ReadsRequest.map {α : Type} {f : α → Instr} (framed : ∀ x, requestFrame (f x) ≠ .none) (o : Option α) :
    ReadsRequest (o.map f) := by
  cases o with
  | none => exact .none
  | some x => exact .some (framed x)

section
variable {body : List Byte}

theorem parse0_readsRequest {i : Instr} (framed : requestFrame i ≠ none) : ReadsRequest (parse0 i body) := by
  unfold parse0
  split
  · exact .some framed
  · exact .none

theorem parse1_readsRequest {f : Nat → Instr} (framed : ∀ x, requestFrame (f x) ≠ none) :
    ReadsRequest (parse1 f body) := by
  unfold parse1
  split
  · exact .some (framed _)
  · exact .none

theorem parse11_readsRequest {f : Nat → Nat → Instr} (framed : ∀ x y, requestFrame (f x y) ≠ none) :
    ReadsRequest (parse11 f body) := by
  unfold parse11
  split
  · exact .some (framed _ _)
  · exact .none

theorem parse31_readsRequest {f : Nat → Nat → Instr} (framed : ∀ x y, requestFrame (f x y) ≠ none) :
    ReadsRequest (parse31 f body) := by
  unfold parse31
  split
  · exact .some (framed _ _)
  · exact .none

theorem parseTargetValue_readsRequest {f : Target → Int → Instr} (framed : ∀ g v, requestFrame (f g v) ≠ none) :
    ReadsRequest (parseTargetValue f body) := by
  unfold parseTargetValue
  split
  · exact .some (framed _ _)
  · exact .none

theorem parseGo_readsRequest (l : Lane) (t : Byte) : ReadsRequest (parseGo (.go l t) body) := by
  unfold parseGo
  split
  · exact .some nofun
  · exact .some nofun
  · exact .none

theorem parseStageBegin_readsRequest (l : Lane) (t : Byte) :
    ReadsRequest (parseStageBegin (.stageBegin l t) body) := by
  unfold parseStageBegin
  split
  · refine .map (fun _ => ?_) _
    exact nofun
  · exact .none

end

/-- The arms of `parseRequest` are gone through by the shape of the body that they read. -/
theorem parseRequest_readsRequest (l : Lane) (f : Frame) : ReadsRequest (parseRequest l f) := by
  unfold parseRequest
  split
  any_goals exact parse0_readsRequest nofun
  any_goals exact parse1_readsRequest fun _ => nofun
  any_goals exact parse11_readsRequest fun _ _ => nofun
  any_goals exact parse31_readsRequest fun _ _ => nofun
  any_goals exact parseTargetValue_readsRequest fun _ _ => nofun
  any_goals exact parseGo_readsRequest l f.tag
  any_goals exact parseStageBegin_readsRequest l f.tag
  any_goals exact .some nofun
  any_goals exact .none
  all_goals
    split
    · exact .some nofun
    · exact .none

namespace Machine

/-! ## The steps of R178 -/

/-- The owner takes a request as the command of its own row (R178 step 5); the events, which no frame carries, are set apart
first. -/
theorem handToOwner_eq_exec {i : Instr} (framed : requestFrame i ≠ none) (s : State) : handToOwner i s = exec i s := by
  cases i
  any_goals exact absurd rfl framed
  all_goals rfl

theorem State.onLane_onLane (s : State) (l : Lane) (f g : LaneState → LaneState) :
    (s.onLane l f).onLane l g = s.onLane l fun x => g (f x) := by
  cases l <;> rfl

section
variable {l : Lane} {f : Frame} (s : State)

theorem takeFrame_unknownRequest (unknown : isRequestCode f.code = false) :
    takeFrame l f s = .next (s.reply l f .unknownRequest []) := by
  simp [takeFrame, unknown]

theorem takeFrame_refusedRole (known : isRequestCode f.code = true) (forbidden : rolePermits l f.code = false) :
    takeFrame l f s = .next (s.reply l f .refusedRole []) := by
  simp [takeFrame, known, forbidden]

theorem takeFrame_malformed (permits : rolePermits l f.code = true) (unread : parseRequest l f = none) :
    takeFrame l f s = .next (s.reply l f .malformed []) := by
  simp [takeFrame, isRequestCode_of_rolePermits permits, permits, unread]

theorem takeFrame_handed {i : Instr} (permits : rolePermits l f.code = true) (read : parseRequest l f = some i) :
    takeFrame l f s = exec i s := by
  have owner := handToOwner_eq_exec (parseRequest_readsRequest l f i read) s
  simp [takeFrame, isRequestCode_of_rolePermits permits, permits, read, owner]

end

section
variable {l : Lane} (f : Frame) {s : State} (high : (s.lanes.get l).line = .high)
include high

theorem exec_goodFrame_dropped {g : Frame} (occupied : (s.lanes.get l).slot = some g) :
    exec (.goodFrame l f) s =
      .next (s.onLane l fun x => { x with assembly := none, dropped := min 255 (x.dropped + 1) }) := by
  have drops : execGoodFrame l f s = .next ((s.endAssembly l).dropFrame l) := by
    simp [execGoodFrame, LaneState.receives, high, occupied]
  exact drops.trans (congrArg _ (State.onLane_onLane s l _ _))

theorem exec_goodFrame_entered (empty : (s.lanes.get l).slot = none) :
    exec (.goodFrame l f) s = takeFrame l f (s.onLane l fun x => { x with assembly := none, slot := some f }) := by
  have enters : execGoodFrame l f s = takeFrame l f ((s.endAssembly l).enterSlot l f) := by
    simp [execGoodFrame, LaneState.receives, high, empty]
  exact enters.trans (congrArg _ (State.onLane_onLane s l _ _))

end

/-- A frame that has entered the slot, with the lane's own answer to it. -/
theorem State.reply_entered (l : Lane) (f : Frame) (st : Status) (s : State) :
    (s.onLane l fun x => { x with assembly := none, slot := some f }).reply l f st [] =
      s.onLane l fun x =>
        { x with assembly := none, slot := some f, reply := some (replyChars f.tag st []) } :=
  State.onLane_onLane s l _ _

/-- Settles O6, one step of R178 for each clause. -/
theorem goodFrameIsTakenInOrder : Obligations.GoodFrameIsTakenInOrder := by
  intro l f s high anyLane fullLane code permitted
  refine ⟨fun g occupied => exec_goodFrame_dropped f high occupied, fun empty => ?_⟩
  rw [exec_goodFrame_entered f high empty]
  simp only [← State.reply_entered]
  have permits : permitted → rolePermits l f.code = true := (rolePermits_iff l f.code).mpr
  refine ⟨fun notAny notFull => ?unknown, fun onP full => ?role, fun allowed unread => ?malformed,
    fun i allowed read => ?handed⟩
  case unknown =>
    refine takeFrame_unknownRequest _ (Bool.eq_false_iff.mpr fun known => ?_)
    exact ((isRequestCode_iff f.code).mp known).elim notAny notFull
  case role =>
    refine takeFrame_refusedRole _ ((isRequestCode_iff f.code).mpr (.inr full)) (Bool.eq_false_iff.mpr fun allowed => ?_)
    rcases (rolePermits_iff l f.code).mp allowed with any | ⟨notP, _⟩
    · exact not_mem_anyLaneCodes_of_mem_fullLaneCodes _ full any
    · exact notP onP
  case malformed => exact takeFrame_malformed _ (permits allowed) unread
  case handed => exact takeFrame_handed _ (permits allowed) read

end Machine

end Sys2Proof
end

section
/-! Commands of a lane alone (chapter 10): the queue's front, the reads, the requests that Lane P may not send, NOTICES, and
the receiver's faults and lane resets. -/

namespace Sys2Proof.Machine

/-- Settles O1. -/
theorem stepRunsFrontCommand : Obligations.StepRunsFrontCommand := fun c rest s =>
  step_cons { s with pending := c :: rest } c rest rfl

/-! ## Outcomes that only answer -/

/-- The outcome is the request's answer on the state as it stands. -/
def AnswersAlone (s : State) (i : Instr) (o : Host.Outcome State Fault Refusal) : Prop :=
  ∃ st body, o = .next (s.answer i st body)

theorem AnswersAlone.answer (s : State) (i : Instr) (st : Status) (body : List Byte) :
    AnswersAlone s i (.next (s.answer i st body)) := ⟨st, body, rfl⟩

theorem AnswersAlone.ite {s : State} {i : Instr} {p : Prop} [Decidable p] {x y : Host.Outcome State Fault Refusal}
    (hx : AnswersAlone s i x) (hy : AnswersAlone s i y) : AnswersAlone s i (if p then x else y) := by
  split
  · exact hx
  · exact hy

theorem OnlyReads.of_answersAlone {s : State} {i : Instr} {l : Lane} {f : Frame} (framed : requestFrame i = some (l, f))
    (h : AnswersAlone s i (exec i s)) : OnlyReads s i := by
  obtain ⟨st, body, e⟩ := h
  exact ⟨_, st, body, e, Answered.of_answer framed (Noticed.refl s) st body, State.answer_frame s i st body⟩

/-! ## The reads that choose an answer -/

section
variable (l : Lane) (tag : Byte) (a b : Nat) (s : State)

theorem execLevelRead_answers : AnswersAlone s (.levelRead l tag a b) (execLevelRead l tag a b s) :=
  .ite (.answer ..) (.ite (.answer ..) (.answer ..))

theorem execFadeStatus_answers : AnswersAlone s (.fadeStatus l tag a b) (execFadeStatus l tag a b s) :=
  .ite (.answer ..) (.ite (.answer ..) (.answer ..))

theorem execCueList_answers : AnswersAlone s (.cueList l tag a b) (execCueList l tag a b s) :=
  .ite (.answer ..) (.answer ..)

theorem execCueRead_answers : AnswersAlone s (.cueRead l tag a b) (execCueRead l tag a b s) := by
  unfold execCueRead
  dsimp only
  split
  · exact .answer ..
  · exact .ite (.answer ..) (.answer ..)

theorem execGroupRead_answers : AnswersAlone s (.groupRead l tag a) (execGroupRead l tag a s) := by
  unfold execGroupRead
  dsimp only
  split
  · exact .answer ..
  · exact .answer ..

theorem execSetupRead_answers : AnswersAlone s (.setupRead l tag a b) (execSetupRead l tag a b s) := by
  unfold execSetupRead
  dsimp only
  split
  · exact .ite (.answer ..) (.answer ..)
  · exact .answer ..
  · exact .answer ..
  · exact .answer ..

theorem execRunStatus_answers : AnswersAlone s (.runStatus l tag a) (execRunStatus l tag a s) :=
  .ite (.answer ..) (.answer ..)

theorem execZoneStatus_answers : AnswersAlone s (.zoneStatus l tag a b) (execZoneStatus l tag a b s) :=
  .ite (.answer ..) (.ite (.answer ..) (.answer ..))

theorem execAlarmPoll_answers : AnswersAlone s (.alarmPoll l tag a) (execAlarmPoll l tag a s) :=
  .ite (.answer ..) (.answer ..)

theorem execLaneStatus_answers : AnswersAlone s (.laneStatus l tag a) (execLaneStatus l tag a s) := by
  unfold execLaneStatus
  dsimp only
  split
  · exact .answer ..
  · exact .answer ..

theorem execStageVerify_answers : AnswersAlone s (.stageVerify l tag a) (execStageVerify l tag a s) := by
  by_cases full : l = .p
  · subst full
    exact .answer ..
  · rw [execStageVerify, fullOnly_full l _ _ _ full]
    split
    · exact .answer ..
    · split
      · exact .answer ..
      · exact .answer ..

end

/-- Settles O9: each read's outcome is an answer and nothing else. -/
theorem readsChangeNothing : Obligations.ReadsChangeNothing := fun l tag a b s =>
  ⟨.of_answersAlone rfl (execLevelRead_answers l tag a b s), .of_answersAlone rfl (.answer ..),
    .of_answersAlone rfl (.answer ..), .of_answersAlone rfl (execFadeStatus_answers l tag a b s),
    .of_answersAlone rfl (execCueList_answers l tag a b s), .of_answersAlone rfl (execCueRead_answers l tag a b s),
    .of_answersAlone rfl (execGroupRead_answers l tag a s), .of_answersAlone rfl (.answer ..),
    .of_answersAlone rfl (execSetupRead_answers l tag a b s), .of_answersAlone rfl (execRunStatus_answers l tag a s),
    .of_answersAlone rfl (.answer ..), .of_answersAlone rfl (execZoneStatus_answers l tag a b s),
    .of_answersAlone rfl (.answer ..), .of_answersAlone rfl (execAlarmPoll_answers l tag a s),
    .of_answersAlone rfl (.answer ..), .of_answersAlone rfl (.answer ..),
    .of_answersAlone rfl (execLaneStatus_answers l tag a s), .of_answersAlone rfl (.answer ..),
    .of_answersAlone rfl (.answer ..), .of_answersAlone rfl (execStageVerify_answers l tag a s)⟩

/-! ## Roles (R181) -/

/-- Settles O10: the meaning of each of the sixteen begins with the role check. -/
theorem lanePIsRefusedFullLaneRequests : Obligations.LanePIsRefusedFullLaneRequests := fun _ _ _ _ _ _ _ _ _ _ _ =>
  ⟨.of_answer rfl rfl, .of_answer rfl rfl, .of_answer rfl rfl, .of_answer rfl rfl,
    .of_answer rfl rfl, .of_answer rfl rfl, .of_answer rfl rfl, .of_answer rfl rfl,
    .of_answer rfl rfl, .of_answer rfl rfl, .of_answer rfl rfl, .of_answer rfl rfl,
    .of_answer rfl rfl, .of_answer rfl rfl, .of_answer rfl rfl, .of_answer rfl rfl⟩

/-! ## NOTICES (R183) -/

/-- The character of a notice set holds its flags, STANDBY in bit 0 to RESET in bit 6. -/
theorem NoticeSet.char_bits (n : NoticeSet) :
    n.char.getLsbD 0 = n.standby ∧ n.char.getLsbD 1 = n.run ∧ n.char.getLsbD 2 = n.store ∧ n.char.getLsbD 3 = n.call ∧
      n.char.getLsbD 4 = n.alarm ∧ n.char.getLsbD 5 = n.performance ∧ n.char.getLsbD 6 = n.reset ∧
      n.char.getLsbD 7 = false := by
  obtain ⟨standby, run, store, call, alarm, performance, reset⟩ := n
  revert standby run store call alarm performance reset
  decide

theorem exec_notices_eq (l : Lane) (tag : Byte) (s : State) :
    exec (.notices l tag) s = .next (s.onLane l fun x =>
      { x with notices := {}, slot := some ⟨tag, 0x58, []⟩,
               reply := some (replyChars tag .ok [(s.lanes.get l).notices.char]) }) :=
  congrArg _ (State.onLane_onLane s l _ _)

/-- Settles O8. -/
theorem noticesAreFetchedAndEmptied : Obligations.NoticesAreFetchedAndEmptied := by
  intro l tag s
  obtain ⟨b0, b1, b2, b3, b4, b5, b6, b7⟩ := (s.lanes.get l).notices.char_bits
  have own := PerLane.get_modify_self s.lanes l fun x =>
    { x with notices := {}, slot := some ⟨tag, 0x58, []⟩,
             reply := some (replyChars tag .ok [(s.lanes.get l).notices.char]) }
  refine ⟨_, _, exec_notices_eq l tag s, own, ?_, b0, b1, b2, b3, b4, b5, b6, b7, fun m other => ?_, rfl⟩
  · exact congrArg LaneState.attention own
  · exact (State.lane_onLane s l m _).trans (if_neg other)

/-! ## The receive line (R174 to R178) and the lane reset (R182) -/

/-- A lane's change written as another function that agrees on the lane's value. -/
theorem State.onLane_congr (s : State) (l : Lane) {f g : LaneState → LaneState} (h : f (s.lanes.get l) = g (s.lanes.get l)) :
    s.onLane l f = s.onLane l g := by
  cases l <;> simp only [State.onLane, PerLane.modify, PerLane.get] at h ⊢ <;> rw [h]

/-- On a line that is high an event of the receiver is taken. -/
theorem State.received_high {s : State} {l : Lane} (high : (s.lanes.get l).line = .high) (f : LaneState → LaneState) :
    s.received l f = s.onLane l f :=
  State.onLane_congr s l (by simp [LaneState.receives, high])

theorem State.returnHigh_low {s : State} {l : Lane} (low : (s.lanes.get l).line = .low) :
    s.onLane l LaneState.returnHigh = s.onLane l fun x => { x with line := .high, framing := min 255 (x.framing + 1) } :=
  State.onLane_congr s l (by simp [LaneState.returnHigh, low, bump8, bump])

theorem State.returnHigh_broken {s : State} {l : Lane} (broken : (s.lanes.get l).line = .broken) :
    s.onLane l LaneState.returnHigh = s.onLane l fun x => { x with line := .high } :=
  State.onLane_congr s l (by simp [LaneState.returnHigh, broken])

theorem State.sent_of_reply {s : State} {l : Lane} {f : Frame} {cs : List Character}
    (slot : (s.lanes.get l).slot = some f) (reply : (s.lanes.get l).reply = some cs) :
    s.onLane l LaneState.sent = s.onLane l fun x => { x with slot := none, reply := none } :=
  State.onLane_congr s l (by simp [LaneState.sent, slot, reply])

theorem exec_laneReset_taken {l : Lane} {s : State} (up : (s.lanes.get l).line ≠ .broken) :
    exec (.laneReset l) s = .next ((s.onLane l LaneState.reset).setBuffer l none) :=
  congrArg _ (if_neg up)

theorem State.setBuffer_frame (s : State) (l : Lane) (v : Option Image) :
    s.setBuffer l v = { s with staging := (s.setBuffer l v).staging } := by cases l <;> rfl

theorem State.buffer_setBuffer_none (s : State) (l : Lane) : (s.setBuffer l none).buffer l = none := by
  cases l <;> rfl

/-- Settles O7: one case for each event of a lane's receiver, and the lane reset. -/
theorem receiverFaultsAndLaneResets : Obligations.ReceiverFaultsAndLaneResets := by
  refine ⟨fun l s => ⟨fun high => ?faults, fun low => ?low, fun broken => ?broken, fun f cs slot reply => ?sent⟩,
    fun l s up => ?reset⟩
  case faults =>
    have taken := State.received_high high
    exact ⟨fun _ _ => congrArg _ (taken _), congrArg _ (taken _), fun _ => congrArg _ (taken _),
      fun _ => congrArg _ (taken _), fun _ => congrArg _ (taken _), congrArg _ (taken _)⟩
  case low => exact congrArg _ (State.returnHigh_low low)
  case broken => exact congrArg _ (State.returnHigh_broken broken)
  case sent => exact congrArg _ (State.sent_of_reply slot reply)
  case reset =>
    refine ⟨_, exec_laneReset_taken up, ?_, fun m other => ?_, State.buffer_setBuffer_none _ l, fun m other => ?_, ?_⟩
    · rw [State.setBuffer_lanes]
      exact PerLane.get_modify_self s.lanes l _
    · rw [State.setBuffer_lanes]
      exact (State.lane_onLane s l m _).trans (if_neg other)
    · rw [State.buffer_setBuffer, if_neg fun both => other both.1]
      cases m <;> rfl
    · rw [State.setBuffer_frame]
      rfl

end Sys2Proof.Machine
end

section
/-! What holds at all times, block by block: what each operation on a block's state keeps of it. -/

namespace Sys2Proof.Machine

/-! ## The level table (R2) -/

/-- A point's base and trim lie in their ranges (R2). -/
def Point.LevelOk (q : Point) : Prop :=
  Config.off ≤ q.base ∧ q.base ≤ Config.maxLevel ∧ Config.minTrim ≤ q.trim ∧ q.trim ≤ Config.maxLevel

theorem levelsOk_iff (s : State) : LevelsOk s ↔ ∀ p, (s.point p).LevelOk := Iff.rfl

theorem clampBase_bounds (x : Int) : Config.off ≤ clampBase x ∧ clampBase x ≤ Config.maxLevel := by
  show (-900 : Int) ≤ max (-900) (min 120 x) ∧ max (-900) (min 120 x) ≤ 120
  omega

theorem clampTrim_bounds (x : Int) : Config.minTrim ≤ clampTrim x ∧ clampTrim x ≤ Config.maxLevel := by
  show (-600 : Int) ≤ max (-600) (min 120 x) ∧ max (-600) (min 120 x) ≤ 120
  omega

theorem zero_trim : Config.minTrim ≤ 0 ∧ 0 ≤ Config.maxLevel := by decide

section
variable {q : Point} (ok : q.LevelOk)
include ok

theorem Point.LevelOk.withBase (x : Int) : Point.LevelOk { q with base := clampBase x } :=
  ⟨(clampBase_bounds x).1, (clampBase_bounds x).2, ok.2.2⟩

theorem Point.LevelOk.withTrim (x : Int) : Point.LevelOk { q with trim := clampTrim x } :=
  ⟨ok.1, ok.2.1, clampTrim_bounds x⟩

theorem Point.LevelOk.jump (level : Int) (clear : Bool) : (q.jump level clear).LevelOk := by
  have base := clampBase_bounds level
  obtain ⟨_, _, trimLow, trimHigh⟩ := ok
  cases clear with
  | false => exact ⟨base.1, base.2, trimLow, trimHigh⟩
  | true => exact ⟨base.1, base.2, zero_trim.1, zero_trim.2⟩

theorem Point.LevelOk.capture (clear : Bool) : (q.capture clear).LevelOk := by
  have base := clampBase_bounds q.effective
  cases clear with
  | false => exact ok
  | true => exact ⟨base.1, base.2, zero_trim.1, zero_trim.2⟩

end

theorem LevelsOk.onPoint {s : State} (ok : LevelsOk s) (p : Nat) {f : Point → Point}
    (keeps : ∀ q : Point, q.LevelOk → (f q).LevelOk) : LevelsOk (s.onPoint p f) := by
  refine (levelsOk_iff _).mpr fun q => ?_
  rw [State.point_onPoint]
  split
  · exact keeps _ (ok q)
  · exact ok q

theorem LevelsOk.onPoints {s : State} (ok : LevelsOk s) (ps : List Nat) {f : Point → Point}
    (keeps : ∀ q : Point, q.LevelOk → (f q).LevelOk) : LevelsOk (s.onPoints ps f) := by
  unfold State.onPoints
  induction ps generalizing s with
  | nil => exact ok
  | cons p ps ih => exact ih (ok.onPoint p keeps)

theorem LevelsOk.leave {s : State} (ok : LevelsOk s) (p : Nat) : LevelsOk (s.leave p) := by
  refine (levelsOk_iff _).mpr fun q => ?_
  rw [State.point_leave]
  split
  · exact ok q
  · exact ok q

/-! ## Memberships and slots (R38, R39) -/

/-- The member entries of a slot, 0 where it is FREE. -/
def slotSize (o : Option FadeSlot) : Nat := (o.map fun f => f.members.length).getD 0

theorem Table.toList_eq_range {α : Type} {n : Nat} (t : Table α n) (d : α) :
    t.toList = (List.range n).map fun k => t.getD k d := by
  obtain ⟨l, hl⟩ := t
  subst hl
  refine List.ext_getElem (by simp) fun k h _ => ?_
  simp [Table.getD, h]

theorem State.poolUsed_eq_sum (s : State) : s.poolUsed = ∑ k ∈ Finset.range Config.slots, slotSize (s.slot k) := by
  have sizes : ∀ xs : List (Option FadeSlot),
      ((xs.filterMap id).map fun f => f.members.length).sum = (xs.map slotSize).sum := by
    intro xs
    induction xs with
    | nil => rfl
    | cons x xs ih => cases x <;> simp [slotSize] at ih ⊢ <;> exact ih
  unfold State.poolUsed State.usedSlots
  rw [sizes, Table.toList_eq_range s.slots none, List.map_map]
  rfl

/-- The slot's member list holds the point. -/
def State.holds (s : State) (k p : Nat) : Prop := ∃ f, s.slot k = some f ∧ ∃ m ∈ f.members, m.point = p

theorem FadesOk.membership_iff {s : State} (ok : FadesOk s) {p : Nat} (below : p < Config.points) (k : Nat) :
    (s.point p).membership = some k ↔ s.holds k p := ok.1 p k below

/-- Memberships and the members' points being what they were, they still agree. -/
theorem FadesOk.of_same {s t : State} (ok : FadesOk s) (points : ∀ p, (t.point p).membership = (s.point p).membership)
    (slots : ∀ k, (t.slot k).map FadeSlot.members = (s.slot k).map FadeSlot.members) : FadesOk t := by
  obtain ⟨agree, full, pool⟩ := ok
  have same : ∀ k f, t.slot k = some f → ∃ g, s.slot k = some g ∧ g.members = f.members := fun k f h => by
    have := slots k
    rw [h, Option.map_some] at this
    exact Option.map_eq_some_iff.mp this.symm
  have same' : ∀ k f, s.slot k = some f → ∃ g, t.slot k = some g ∧ g.members = f.members := fun k f h => by
    have := slots k
    rw [h, Option.map_some] at this
    exact Option.map_eq_some_iff.mp this
  refine ⟨fun p k below => ?_, fun k f h => ?_, ?_⟩
  · rw [points, agree p k below]
    constructor
    · rintro ⟨f, hf, m⟩
      obtain ⟨g, hg, e⟩ := same' k f hf
      exact ⟨g, hg, e ▸ m⟩
    · rintro ⟨f, hf, m⟩
      obtain ⟨g, hg, e⟩ := same k f hf
      exact ⟨g, hg, e ▸ m⟩
  · obtain ⟨g, hg, e⟩ := same k f h
    exact e ▸ full k g hg
  · have sizes : ∀ k, slotSize (t.slot k) = slotSize (s.slot k) := fun k => by
      have := congrArg (fun o => (o.map List.length).getD 0) (slots k)
      simpa [slotSize, Option.map_map, Function.comp_def] using this
    rw [State.poolUsed_eq_sum] at pool ⊢
    simpa only [sizes] using pool

theorem Table.getD_replicate_same {α : Type} (n : Nat) (a : α) (j : Nat) : (Table.replicate n a).getD j a = a := by
  rcases Nat.lt_or_ge j n with below | above
  · exact Table.getD_replicate _ _ _ _ below
  · exact Table.getD_of_le _ _ _ above

theorem State.slot_of_le (s : State) {k : Nat} (above : Config.slots ≤ k) : s.slot k = none :=
  Table.getD_of_le _ _ _ above

theorem State.point_of_le (s : State) {p : Nat} (above : Config.points ≤ p) : s.point p = {} :=
  Table.getD_of_le _ _ _ above

/-- A point in a slot is a point of the table, and the slot holds it. -/
theorem FadesOk.holds_of_membership {s : State} (ok : FadesOk s) {p k : Nat} (member : (s.point p).membership = some k) :
    p < Config.points ∧ s.holds k p := by
  have below : p < Config.points := by
    by_contra above
    rw [s.point_of_le (Nat.le_of_not_lt above)] at member
    cases member
  exact ⟨below, (ok.membership_iff below k).mp member⟩

/-- The members of a slot that points have left are those of it not among them. -/
theorem FadeSlot.mem_without {ps : List Nat} {f g : FadeSlot} (h : f.without ps = some g) (m : Member) :
    m ∈ g.members ↔ m ∈ f.members ∧ m.point ∉ ps := by
  unfold FadeSlot.without at h
  split at h
  · cases h
  · cases h
    simp

theorem FadeSlot.without_eq_none {ps : List Nat} {f : FadeSlot} (h : f.without ps = none) :
    ∀ m ∈ f.members, m.point ∈ ps := by
  unfold FadeSlot.without at h
  split at h
  · assumption
  · cases h

theorem FadeSlot.slotSize_without_le (ps : List Nat) (f : FadeSlot) : slotSize (f.without ps) ≤ slotSize (some f) := by
  unfold FadeSlot.without slotSize
  split
  · simp
  · simpa using List.length_filter_le _ _

/-- A slot with the points taken out holds the others. -/
theorem FadeSlot.holds_without (ps : List Nat) (f : FadeSlot) (q : Nat) :
    (∃ g, f.without ps = some g ∧ ∃ m ∈ g.members, m.point = q) ↔ q ∉ ps ∧ ∃ m ∈ f.members, m.point = q := by
  constructor
  · rintro ⟨g, hg, m, mem, rfl⟩
    obtain ⟨inside, out⟩ := (mem_without hg m).mp mem
    exact ⟨out, m, inside, rfl⟩
  · rintro ⟨out, m, inside, rfl⟩
    cases hg : f.without ps with
    | none => exact absurd (without_eq_none hg m inside) out
    | some g => exact ⟨g, rfl, m, (mem_without hg m).mpr ⟨inside, out⟩, rfl⟩

theorem FadeSlot.without_nonempty {ps : List Nat} {f g : FadeSlot} (h : f.without ps = some g) : g.members ≠ [] := by
  intro empty
  unfold FadeSlot.without at h
  split at h
  · cases h
  · next some_stays =>
    cases h
    exact some_stays (by simpa using empty)

theorem FadesOk.leave {s : State} (ok : FadesOk s) (p : Nat) : FadesOk (s.leave p) := by
  cases member : (s.point p).membership with
  | none =>
    have stays : s.leave p = s := by simp [State.leave, member]
    rw [stays]
    exact ok
  | some k =>
    obtain ⟨_, f, hf, _⟩ := ok.holds_of_membership member
    have slot := fun j => s.slot_leave p k j f member hf
    obtain ⟨agree, full, pool⟩ := ok
    refine ⟨fun q j below => ?_, fun j g h => ?_, ?_⟩
    · rw [State.point_leave, slot]
      by_cases moved : j = k
      · subst moved
        simp only [if_true]
        rw [f.holds_without]
        by_cases self : q = p
        · simp [self]
        · have before := agree q j below
          rw [hf] at before
          simpa [self] using before
      · rw [if_neg moved]
        by_cases self : q = p
        · subst self
          rw [if_pos rfl, ← agree q j below, member]
          simp [Ne.symm moved]
        · rw [if_neg self]
          exact agree q j below
    · rw [slot] at h
      split at h
      · exact FadeSlot.without_nonempty h
      · exact full j g h
    · rw [State.poolUsed_eq_sum] at pool ⊢
      refine (Finset.sum_le_sum fun j _ => ?_).trans pool
      rw [slot]
      split
      · next moved => exact moved ▸ hf ▸ f.slotSize_without_le [p]
      · exact le_rfl

theorem State.membership_onPoint (s : State) (p q : Nat) {f : Point → Point} {m : Option Nat}
    (sets : ∀ x, (f x).membership = m) :
    ((s.onPoint p f).point q).membership = if q = p ∧ q < Config.points then m else (s.point q).membership := by
  rw [State.point_onPoint]
  split
  · exact sets _
  · rfl

/-- Points given one membership, some perhaps more than once. -/
theorem State.membership_onPoints (s : State) (ps : List Nat) (q : Nat) {f : Point → Point} {m : Option Nat}
    (sets : ∀ x, (f x).membership = m) :
    ((s.onPoints ps f).point q).membership = if q ∈ ps ∧ q < Config.points then m else (s.point q).membership := by
  induction ps generalizing s with
  | nil => simp [State.onPoints]
  | cons p ps ih =>
    have first : s.onPoints (p :: ps) f = (s.onPoint p f).onPoints ps f := rfl
    rw [first, ih, s.membership_onPoint p q sets]
    by_cases below : q < Config.points
    · by_cases rest : q ∈ ps
      · simp [rest, below]
      · simp [rest, below]
    · simp [below]

theorem State.membership_onPoints_of_keeps (s : State) (ps : List Nat) (q : Nat) {f : Point → Point}
    (keeps : ∀ x, (f x).membership = x.membership) :
    ((s.onPoints ps f).point q).membership = (s.point q).membership := by
  induction ps generalizing s with
  | nil => rfl
  | cons p ps ih =>
    have first : s.onPoints (p :: ps) f = (s.onPoint p f).onPoints ps f := rfl
    rw [first, ih, State.point_onPoint]
    split
    · exact keeps _
    · rfl

theorem FadesOk.onPoints {s : State} (ok : FadesOk s) (ps : List Nat) {f : Point → Point}
    (keeps : ∀ x, (f x).membership = x.membership) : FadesOk (s.onPoints ps f) :=
  ok.of_same (fun q => s.membership_onPoints_of_keeps ps q keeps) fun k => by
    unfold State.slot
    rw [State.onPoints_slots]

/-- A slot that gets points which are in no slot holds them, and they are told so (R48). -/
theorem FadesOk.joined {s t : State} (ok : FadesOk s) {k : Nat} {ps : List Nat} {f : FadeSlot} (inside : k < Config.slots)
    (free : s.slot k = none) (some_join : ps ≠ []) (out : ∀ p ∈ ps, (s.point p).membership = none)
    (room : ps.length ≤ s.poolFree) (members : f.members.map Member.point = ps)
    (points : ∀ q, (t.point q).membership = if q ∈ ps ∧ q < Config.points then some k else (s.point q).membership)
    (slots : ∀ j, t.slot j = if j = k then some f else s.slot j) : FadesOk t := by
  obtain ⟨agree, full, pool⟩ := ok
  have held : ∀ q, (∃ m ∈ f.members, m.point = q) ↔ q ∈ ps := fun q => by rw [← members]; simp
  refine ⟨fun q j below => ?_, fun j g h => ?_, ?_⟩
  · rw [points, slots]
    by_cases taken : j = k
    · subst taken
      have none_held := (agree q j below).not.mpr (by simp [free])
      simp only [if_true, Option.some.injEq, exists_eq_left', held, below, and_true]
      by_cases joins : q ∈ ps <;> simp [joins, none_held]
    · rw [if_neg taken, ← agree q j below]
      by_cases joins : q ∈ ps
      · simp [joins, below, out q joins, Ne.symm taken]
      · simp [joins]
  · rw [slots] at h
    split at h
    · cases h
      rintro empty
      rw [empty] at members
      exact some_join members.symm
    · exact full j g h
  · have size : slotSize (some f) = ps.length := by rw [← members]; simp [slotSize]
    have sum : ∑ j ∈ Finset.range Config.slots, slotSize (t.slot j) =
        (∑ j ∈ Finset.range Config.slots, slotSize (s.slot j)) + ps.length := by
      have split_one : ∀ j, slotSize (t.slot j) = slotSize (s.slot j) + if j = k then ps.length else 0 := fun j => by
        rw [slots]
        by_cases taken : j = k
        · rw [if_pos taken, if_pos taken, taken, free, size]
          simp [slotSize]
        · rw [if_neg taken, if_neg taken, Nat.add_zero]
      rw [Finset.sum_congr rfl fun j _ => split_one j, Finset.sum_add_distrib, Finset.sum_ite_eq',
        if_pos (Finset.mem_range.mpr inside)]
    rw [State.poolUsed_eq_sum, sum, ← State.poolUsed_eq_sum]
    unfold State.poolFree at room
    omega

/-- A slot whose members all leave is FREE, and they are told so (R44). -/
theorem FadesOk.freed {s t : State} (ok : FadesOk s) {k : Nat} {f : FadeSlot} (used : s.slot k = some f)
    (points : ∀ q, (t.point q).membership =
      if q ∈ f.members.map Member.point ∧ q < Config.points then none else (s.point q).membership)
    (slots : ∀ j, t.slot j = if j = k then none else s.slot j) : FadesOk t := by
  obtain ⟨agree, full, pool⟩ := ok
  refine ⟨fun q j below => ?_, fun j g h => ?_, ?_⟩
  · have own : (s.point q).membership = some k ↔ q ∈ f.members.map Member.point := by
      rw [agree q k below, used]
      simp
    rw [points, slots]
    by_cases freed : j = k
    · subst freed
      by_cases member : q ∈ f.members.map Member.point
      · simp [member, below]
      · have := own.not.mpr member
        simp [member, this]
    · rw [if_neg freed, ← agree q j below]
      by_cases member : q ∈ f.members.map Member.point
      · rw [if_pos ⟨member, below⟩, own.mpr member]
        simp [Ne.symm freed]
      · rw [if_neg fun both => member both.1]
  · rw [slots] at h
    split at h
    · cases h
    · exact full j g h
  · rw [State.poolUsed_eq_sum] at pool ⊢
    refine (Finset.sum_le_sum fun j _ => ?_).trans pool
    rw [slots]
    split
    · exact Nat.zero_le _
    · exact le_rfl

/-- Nothing fades and no point is in a slot. -/
theorem FadesOk.still {t : State} (points : ∀ p, (t.point p).membership = none) (slots : ∀ k, t.slot k = none) :
    FadesOk t := by
  refine ⟨fun p k _ => ?_, fun k f h => ?_, ?_⟩
  · simp [points, slots]
  · rw [slots] at h
    cases h
  · rw [State.poolUsed_eq_sum]
    simp [slots, slotSize]

end Sys2Proof.Machine
end

section
/-! What holds at all times, continued: runs and standby, calls, the record and the lanes' counters. -/

namespace Sys2Proof.Machine

/-! ## Runs (R89) -/

/-- The cues of the run list, oldest first. -/
def State.runCues (s : State) : List Nat := s.runner.runs.map (·.cue)

theorem runsOk_iff (s : State) : RunsOk s ↔ s.runCues.Nodup ∧ s.runCues.length ≤ Config.runLimit := by
  rw [State.runCues, List.length_map]
  rfl

theorem RunsOk.of_sublist {s t : State} (ok : RunsOk s) (fewer : t.runCues.Sublist s.runCues) : RunsOk t := by
  obtain ⟨distinct, few⟩ := (runsOk_iff s).mp ok
  exact (runsOk_iff t).mpr ⟨distinct.sublist fewer, fewer.length_le.trans few⟩

/-- What the actions, reports and completions of runs leave of the runner: fewer runs perhaps, and lines changed perhaps. -/
structure RunsShrink (s t : State) : Prop where
  runner : t.runner = { s.runner with runs := t.runner.runs, lines := t.runner.lines }
  cues : t.runCues.Sublist s.runCues

namespace RunsShrink

theorem refl (s : State) : RunsShrink s s := ⟨rfl, .refl _⟩

theorem trans {s t u : State} (h : RunsShrink s t) (g : RunsShrink t u) : RunsShrink s u :=
  ⟨by rw [g.runner, h.runner], g.cues.trans h.cues⟩

theorem of_runner {s t : State} (e : t.runner = s.runner) : RunsShrink s t :=
  ⟨by rw [e], by rw [State.runCues, e]; exact .refl _⟩

theorem standby {s t : State} (h : RunsShrink s t) : t.runner.standby = s.runner.standby := by rw [h.runner]

theorem foldl {α : Type} {f : State → α → State} (step : ∀ s x, RunsShrink s (f s x)) (xs : List α) (s : State) :
    RunsShrink s (xs.foldl f s) := by
  induction xs generalizing s with
  | nil => exact refl s
  | cons x xs ih => exact (step s x).trans (ih _)

end RunsShrink

theorem State.runCues_onRun (s : State) (c : Nat) {f : Run → Run} (same : ∀ r, (f r).cue = r.cue) :
    (s.onRun c f).runCues = s.runCues := by
  unfold State.runCues State.onRun
  rw [List.map_map]
  refine List.map_congr_left fun r _ => ?_
  rw [Function.comp_apply]
  split
  · exact same r
  · rfl

theorem State.runCues_dropRun (s : State) (c : Nat) : (s.dropRun c).runCues = s.runCues.filter (· != c) := by
  unfold State.runCues
  rw [List.filter_map]
  rfl

theorem State.not_mem_runCues {s : State} {c : Nat} (absent : s.run? c = none) : c ∉ s.runCues := by
  unfold State.runCues
  rintro mem
  obtain ⟨r, inList, rfl⟩ := List.mem_map.mp mem
  exact absurd (List.find?_eq_none.mp absent r inList) (by simp)

theorem Run.slotFreed_cue (r : Run) : r.slotFreed.cue = r.cue := by
  unfold Run.slotFreed
  dsimp only
  split <;> rfl

theorem Run.dispatched_cue (r : Run) : r.dispatched.cue = r.cue := by
  unfold Run.dispatched
  cases r.follow with
  | none => rfl
  | afterStart d => rfl
  | afterEnd d => dsimp only; split <;> rfl
  | beats n => rfl

section
variable (s : State)

theorem State.onRun_shrinks (c : Nat) {f : Run → Run} (same : ∀ r, (f r).cue = r.cue) : RunsShrink s (s.onRun c f) :=
  ⟨rfl, by rw [s.runCues_onRun c same]⟩

theorem State.dropRun_shrinks (c : Nat) : RunsShrink s (s.dropRun c) :=
  ⟨rfl, by rw [s.runCues_dropRun]; exact List.filter_sublist⟩

theorem State.checkCompletion_shrinks (c : Nat) : RunsShrink s (s.checkCompletion c) := by
  rcases s.checkCompletion_cases c with e | ⟨_, _, _, e⟩
  · rw [e]
    exact .refl s
  · rw [e]
    exact s.dropRun_shrinks c

theorem State.freeingReport_shrinks (c : Nat) : RunsShrink s (s.freeingReport c) :=
  (s.onRun_shrinks c Run.slotFreed_cue).trans (State.checkCompletion_shrinks _ c)

theorem State.reportFreed_shrinks (owner : Option Nat) : RunsShrink s (s.reportFreed owner) := by
  cases owner with
  | none => exact .refl s
  | some c => exact s.freeingReport_shrinks c

theorem State.leave_shrinks (p : Nat) : RunsShrink s (s.leave p) := by
  unfold State.leave
  split
  · exact .refl s
  · split
    · exact .of_runner rfl
    · dsimp only
      split
      · refine RunsShrink.trans ?_ (State.reportFreed_shrinks _ _)
        exact .of_runner rfl
      · exact .of_runner rfl

theorem State.leaveAll_shrinks (ps : List Nat) : RunsShrink s (s.leaveAll ps) :=
  RunsShrink.foldl (fun s p => s.leave_shrinks p) ps s

theorem State.snapReport_shrinks (owner : Option Nat) (c i n : Nat) : RunsShrink s (s.snapReport owner c i n) := by
  cases owner with
  | none => exact .of_runner rfl
  | some o =>
    have counted := s.onRun_shrinks o (f := fun r => { r with snapped := r.snapped + n }) fun _ => rfl
    exact counted.trans (.of_runner rfl)

theorem State.startMove_shrinks (k : Nat) (owner : Option Nat) (i : Nat) (ps : List Nat) (v : Int) (time : Nat)
    (curve : Curve) (clear : Bool) : RunsShrink s (s.startMove k owner i ps v time curve clear) := by
  have taken : ∀ f g, RunsShrink s ((s.onPoints ps f).setSlot k g) := fun f g =>
    .of_runner (by rw [State.setSlot_runner, State.onPoints_runner])
  unfold State.startMove
  cases owner with
  | none => exact taken _ _
  | some c => exact (taken _ _).trans (State.onRun_shrinks _ c fun _ => rfl)

theorem State.moveLevels_shrinks (owner : Option Nat) (c i : Nat) (ps : List Nat) (v : Int) (time : Nat) (curve : Curve)
    (clear : Bool) : RunsShrink s (s.moveLevels owner c i ps v time curve clear) := by
  have jumped : RunsShrink s (s.onPoints ps (Point.jump v clear)) := .of_runner (State.onPoints_runner s ps _)
  unfold State.moveLevels
  split
  · exact jumped
  · split
    · split
      · exact s.startMove_shrinks ..
      · exact jumped.trans (State.snapReport_shrinks ..)
    · exact jumped.trans (State.snapReport_shrinks ..)

theorem State.levelAction_shrinks (owner : Option Nat) (c i : Nat) (g : ActTarget) (v : Int) (time : Nat) (curve : Curve)
    (clear : Bool) : RunsShrink s (s.levelAction owner c i g v time curve clear) := by
  unfold State.levelAction
  dsimp only
  split
  · exact .refl s
  · exact (s.leaveAll_shrinks _).trans (State.moveLevels_shrinks ..)

theorem State.handAction_shrinks (owner : Option Nat) (c i : Nat) (a : Action) : RunsShrink s (s.handAction owner c i a) := by
  cases a with
  | level g v time curve clear => exact s.levelAction_shrinks ..
  | route z m => exact .of_runner rfl
  | mask m on => exact .of_runner rfl
  | trigger n mode => exact ⟨rfl, .refl _⟩
  | halt g => exact s.leaveAll_shrinks _

theorem handActions_shrinks (owner : Option Nat) (c k : Nat) (acts : List Action) :
    RunsShrink s (handActions owner c k acts s) := by
  induction acts generalizing k s with
  | nil => exact .refl s
  | cons a acts ih => exact (s.handAction_shrinks owner c k a).trans (ih _ _)

theorem State.dispatch_shrinks (c : Nat) : RunsShrink s (s.dispatch c) :=
  (((handActions_shrinks s (some c) c 0 _).trans (State.onRun_shrinks _ c Run.dispatched_cue)).trans
    (State.checkCompletion_shrinks _ c)).trans (.of_runner rfl)

/-- A retirement leaves no run of its cue (R97). -/
theorem State.runCues_retire (c : Nat) (cause : RetireCause) (origin : Origin) :
    (s.retire c cause origin).runCues.Sublist (s.runCues.filter (· != c)) := by
  unfold State.retire
  split
  · next absent =>
    rw [List.filter_eq_self.mpr fun d mem => ?_]
    simpa using fun e : d = c => State.not_mem_runCues absent (e ▸ mem)
  · next r _ =>
    have dropped : ∀ u : State, RunsShrink s u → (u.dropRun c).runCues.Sublist (s.runCues.filter (· != c)) :=
      fun u h => by rw [u.runCues_dropRun]; exact h.cues.filter _
    refine dropped _ ?_
    have orphaned : RunsShrink s (s.orphan c) := .of_runner rfl
    split
    · exact (orphaned.trans (handActions_shrinks ..)).trans (.of_runner rfl)
    · exact orphaned

/-- Room made for a GO of a cue: no run of it, and place for one more (R85). -/
theorem State.makeRoom_runs (c : Nat) (origin : Origin) (ok : RunsOk s) :
    (s.makeRoom c origin).runCues.Nodup ∧ c ∉ (s.makeRoom c origin).runCues ∧
      (s.makeRoom c origin).runCues.length < Config.runLimit := by
  obtain ⟨distinct, few⟩ := (runsOk_iff s).mp ok
  have once := s.runCues_retire c .sameCue origin
  have gone : ∀ xs : List Nat, xs.Sublist (s.runCues.filter (· != c)) → c ∉ xs := fun xs h mem => by
    simpa using List.of_mem_filter (h.subset mem)
  unfold State.makeRoom
  generalize s.retire c .sameCue origin = u at once
  have onceLess := once.trans List.filter_sublist
  dsimp only
  split
  · next none_left =>
    have empty : u.runCues = [] := by rw [State.runCues, none_left]; rfl
    simp [empty]
  · next r rs split_runs =>
    have cues : u.runCues = r.cue :: rs.map (·.cue) := by rw [State.runCues, split_runs]; rfl
    have count : u.runCues.length = rs.length + 1 := by rw [cues]; simp
    split
    · have twice := u.runCues_retire r.cue .listFull origin
      have shorter : (u.runCues.filter (· != r.cue)).length < u.runCues.length :=
        List.length_filter_lt_length_iff_exists.mpr ⟨r.cue, by rw [cues]; exact List.mem_cons_self, by simp⟩
      have limit := onceLess.length_le.trans few
      have less := twice.trans List.filter_sublist
      exact ⟨distinct.sublist (less.trans onceLess), gone _ (less.trans once),
        twice.length_le.trans_lt (shorter.trans_le limit)⟩
    · next room =>
      refine ⟨distinct.sublist onceLess, gone _ once, ?_⟩
      rw [count]
      exact Nat.lt_of_not_le room

end

/-- A new run joins a list that has room and no run of its cue (R85, R89). -/
theorem RunsOk.addRun {s : State} {rec : Cue} {origin : Origin} (distinct : s.runCues.Nodup) (new : rec.number ∉ s.runCues)
    (room : s.runCues.length < Config.runLimit) : RunsOk (s.addRun rec origin) := by
  have cues : (s.addRun rec origin).runCues = s.runCues ++ [rec.number] := by
    unfold State.runCues State.addRun
    rw [List.map_append]
    rfl
  refine (runsOk_iff _).mpr ⟨?_, ?_⟩
  · rw [cues]
    exact distinct.append (List.nodup_singleton _) (by simpa using new)
  · rw [cues, List.length_append]
    exact room

/-! ## The stack and standby (R61, R72) -/

theorem StackOk.of_same {s t : State} (ok : StackOk s) (store : t.store.cues = s.store.cues)
    (standby : t.runner.standby = s.runner.standby) : StackOk t := by
  unfold StackOk
  rw [store, standby]
  exact ok

/-- Standby moved to the next cue after any number. -/
theorem StackOk.nextAfter {s t : State} (ok : StackOk s) (store : t.store = s.store) (x : Nat)
    (standby : t.runner.standby = s.store.nextAfter x) : StackOk t := by
  refine ⟨store ▸ ok.1, fun c h => ?_⟩
  rw [standby] at h
  rw [store]
  exact (s.store.nextAfter_above x c h).2

theorem StackOk.setStandby {s : State} (ascending : s.store.cues.Pairwise fun c d => c.number < d.number) {x : Option Nat}
    (held : ∀ c, x = some c → ∃ rec ∈ s.store.cues, rec.number = c) : StackOk (s.setStandby x) := by
  have standby : (s.setStandby x).runner.standby = x := by rw [State.setStandby_frame]
  refine ⟨by rw [State.setStandby_store]; exact ascending, fun c h => ?_⟩
  rw [State.setStandby_store]
  exact held c (standby ▸ h)

theorem mem_insertCue_numbers (c : Cue) (cs : List Cue) (n : Nat) :
    (∃ d ∈ insertCue c cs, d.number = n) ↔ n = c.number ∨ ∃ d ∈ cs, d.number = n := by
  induction cs with
  | nil => simp [insertCue, eq_comm]
  | cons x xs ih =>
    unfold insertCue
    split
    · simp [eq_comm]
    · split
      · next same =>
        simp only [List.mem_cons, exists_eq_or_imp, ← same]
        constructor
        · rintro (rfl | later)
          · exact .inl rfl
          · exact .inr (.inr later)
        · rintro (rfl | rfl | later)
          · exact .inl rfl
          · exact .inl rfl
          · exact .inr later
      · simp only [List.mem_cons, exists_eq_or_imp, ih]
        tauto

theorem insertCue_ascending {c : Cue} {cs : List Cue} (ascending : cs.Pairwise fun c d => c.number < d.number) :
    (insertCue c cs).Pairwise fun c d => c.number < d.number := by
  induction cs with
  | nil => exact List.pairwise_singleton _ _
  | cons x xs ih =>
    obtain ⟨first, rest⟩ := List.pairwise_cons.mp ascending
    unfold insertCue
    split
    · next less =>
      refine List.pairwise_cons.mpr ⟨fun d mem => ?_, ascending⟩
      rcases List.mem_cons.mp mem with rfl | later
      · exact less
      · exact less.trans (first d later)
    · split
      · next same =>
        exact List.pairwise_cons.mpr ⟨fun d mem => same ▸ first d mem, rest⟩
      · next notLess notSame =>
        refine List.pairwise_cons.mpr ⟨fun d mem => ?_, ih rest⟩
        rcases (mem_insertCue_numbers c xs d.number).mp ⟨d, mem, rfl⟩ with e | ⟨y, later, e⟩
        · omega
        · exact e ▸ first y later

theorem StackOk.commitCue {s : State} (ok : StackOk s) (c : Cue) : StackOk (s.commitCue c) := by
  obtain ⟨ascending, held⟩ := ok
  have sorted := insertCue_ascending (c := { c with editCount := nextEdit (s.store.cueEdit c.number) }) ascending
  have numbers := mem_insertCue_numbers { c with editCount := nextEdit (s.store.cueEdit c.number) } s.store.cues
  unfold State.commitCue
  dsimp only
  split
  · refine StackOk.setStandby sorted ?_
    rintro _ ⟨⟩
    exact (numbers _).mpr (.inl rfl)
  · exact ⟨sorted, fun d h => (numbers d).mpr (.inr (held d h))⟩

theorem StackOk.commitRemoveCue {s : State} (ok : StackOk s) (n : Nat) : StackOk (s.commitRemoveCue n) := by
  obtain ⟨ascending, held⟩ := ok
  have sorted := ascending.filter fun c : Cue => c.number != n
  unfold State.commitRemoveCue
  dsimp only
  split
  · exact StackOk.setStandby sorted fun c h => (Store.nextAfter_above _ n c h).2
  · next other =>
    refine ⟨sorted, fun c h => ?_⟩
    obtain ⟨rec, mem, rfl⟩ := held c h
    exact ⟨rec, List.mem_filter.mpr ⟨mem, by simpa using fun e : rec.number = n => other (e ▸ h)⟩, rfl⟩

/-! ## Calls (R112) -/

@[simp] theorem Zone.attacked_targeted (z : Zone) (depth : Int) (time : Nat) : (z.attacked depth time).targeted = true := by
  unfold Zone.attacked
  split <;> rfl

@[simp] theorem Zone.released_targeted (z : Zone) (time : Nat) : (z.released time).targeted = false := by
  unfold Zone.released
  split <;> rfl

/-- Zones targeted by one zone set are, when that set is passed to another, targeted by the other. -/
theorem State.targeted_retarget {s : State} {old : ZoneSet} (new : ZoneSet)
    (targeted : ∀ z, z < Config.zones → (s.zone z).targeted = old.getLsbD z) {z : Nat} (below : z < Config.zones) :
    ((s.retarget old new).zone z).targeted = new.getLsbD z := by
  rw [State.zone_retarget s old new z below]
  by_cases next : new.getLsbD z
  · simp [next]
  · by_cases before : old.getLsbD z
    · simp [next, before]
    · simp [next, before, targeted z below]

theorem CallsOk.of_same {s t : State} (ok : CallsOk s) (calls : t.calls = s.calls)
    (targeted : ∀ z, z < Config.zones → (t.zone z).targeted = (s.zone z).targeted) : CallsOk t := by
  obtain ⟨one, idle, zones⟩ := ok
  exact ⟨calls ▸ one, calls ▸ idle, fun z below => by rw [targeted z below, zones z below, calls]⟩

theorem CallsOk.of_zones {s t : State} (ok : CallsOk s) (calls : t.calls = s.calls) (zones : t.zones = s.zones) :
    CallsOk t :=
  ok.of_same calls fun z _ => by rw [State.zone, State.zone, zones]

theorem CallsOk.goLive {s : State} {old : ZoneSet} {c : Call}
    (targeted : ∀ z, z < Config.zones → (s.zone z).targeted = old.getLsbD z)
    (one : (c.lane :: s.calls.waiting.map (·.lane)).Nodup) : CallsOk (s.goLive old c) :=
  ⟨one, nofun, fun _ below => State.targeted_retarget (s := s) c.zones targeted below⟩

theorem Calls.liveZones_of_live {q : Calls} {x : LiveCall} (live : q.live = some x) : q.liveZones = x.call.zones := by
  simp [Calls.liveZones, live]

theorem Calls.lanes_of_live {q : Calls} {x : LiveCall} (live : q.live = some x) :
    q.lanes = x.call.lane :: q.waiting.map (·.lane) := by
  simp [Calls.lanes, live]

/-- The call queue with no live call. -/
def State.dropLive (s : State) : State := { s with calls := { s.calls with live := none } }

theorem State.endLive_none_calls (s : State) {x : LiveCall} (live : s.calls.live = some x) (reason : EndReason) :
    (s.endLive reason none).calls = s.dropLive.calls ∧
      (s.endLive reason none).zones = (s.dropLive.retarget x.call.zones 0).zones := by
  unfold State.endLive
  rw [live]
  exact ⟨rfl, rfl⟩

theorem State.endLive_some_calls (s : State) {x : LiveCall} (live : s.calls.live = some x) (reason : EndReason) (c : Call) :
    (s.endLive reason (some c)).calls = (s.dropLive.goLive x.call.zones c).calls ∧
      (s.endLive reason (some c)).zones = (s.dropLive.goLive x.call.zones c).zones := by
  unfold State.endLive
  rw [live]
  exact ⟨rfl, rfl⟩

section
variable {s : State} {x : LiveCall} (live : s.calls.live = some x)
  (targeted : ∀ z, z < Config.zones → (s.zone z).targeted = x.call.zones.getLsbD z) (reason : EndReason)
include live targeted

theorem CallsOk.endLive_none (waiting : s.calls.waiting = []) : CallsOk (s.endLive reason none) := by
  obtain ⟨calls, zones⟩ := s.endLive_none_calls live reason
  refine CallsOk.of_zones (s := s.dropLive.retarget x.call.zones 0) ⟨?_, fun _ => waiting, fun z below => ?_⟩ calls zones
  · simp [Calls.lanes, waiting, State.dropLive]
  · exact State.targeted_retarget (s := s.dropLive) 0 targeted below

theorem CallsOk.endLive_some {c : Call} (one : (c.lane :: s.calls.waiting.map (·.lane)).Nodup) :
    CallsOk (s.endLive reason (some c)) := by
  obtain ⟨calls, zones⟩ := s.endLive_some_calls live reason c
  exact CallsOk.of_zones (CallsOk.goLive (s := s.dropLive) targeted one) calls zones

end

/-- What the scan for the next grant finds is of the list or was given it, and it finds nothing only in an empty list (R114). -/
theorem bestWaiting_scan (cs : List Call) (best : Option Call) :
    ∀ r, cs.foldl (fun best c =>
        match best with
        | none => some c
        | some b => if b.cls.rank < c.cls.rank then some c else some b) best = r →
      (r = none → best = none ∧ cs = []) ∧ ∀ c, r = some c → best = some c ∨ c ∈ cs := by
  induction cs generalizing best with
  | nil =>
    rintro _ rfl
    exact ⟨fun h => ⟨h, rfl⟩, fun c h => .inl h⟩
  | cons x xs ih =>
    intro r h
    obtain ⟨empty, found⟩ := ih _ r h
    refine ⟨fun e => absurd (empty e).1 ?_, fun c e => ?_⟩
    · cases best with
      | none => simp
      | some b => dsimp only; split <;> simp
    · rcases found c e with first | later
      · cases best with
        | none =>
          cases first
          exact .inr List.mem_cons_self
        | some b =>
          dsimp only at first
          split at first
          · cases first
            exact .inr List.mem_cons_self
          · exact .inl first
      · exact .inr (List.mem_cons_of_mem x later)

theorem eq_nil_of_bestWaiting {cs : List Call} (h : bestWaiting cs = none) : cs = [] :=
  ((bestWaiting_scan cs none _ h).1 rfl).2

theorem mem_of_bestWaiting {cs : List Call} {c : Call} (h : bestWaiting cs = some c) : c ∈ cs :=
  ((bestWaiting_scan cs none _ h).2 c rfl).resolve_left nofun

theorem CallsOk.endAndGrant {s : State} (ok : CallsOk s) {x : LiveCall} (live : s.calls.live = some x) (reason : EndReason) :
    CallsOk (s.endAndGrant reason) := by
  obtain ⟨one, _, targeted⟩ := ok
  rw [Calls.liveZones_of_live live] at targeted
  unfold State.endAndGrant
  split
  · next none_waits => exact CallsOk.endLive_none live targeted reason (eq_nil_of_bestWaiting none_waits)
  · next c granted =>
    refine CallsOk.endLive_some (s := { s with calls := { s.calls with waiting := s.calls.waiting.erase c } }) live targeted
      reason ?_
    rw [Calls.lanes_of_live live] at one
    have waits := one.of_cons
    exact ((List.perm_cons_erase (mem_of_bestWaiting granted)).map (·.lane)).nodup_iff.mp waits

theorem CallsOk.placeCall {s : State} (ok : CallsOk s) {c : Call} (new : s.calls.holds c.lane = false) :
    CallsOk (s.placeCall c) := by
  have free : c.lane ∉ s.calls.lanes := fun mem => by
    rw [(Calls.holds_iff _ _).mpr mem] at new
    cases new
  obtain ⟨one, idle, targeted⟩ := ok
  unfold State.placeCall
  dsimp only
  split
  · next live =>
    have empty := idle live
    refine CallsOk.goLive (fun z below => (targeted z below).trans ?_) ?_
    · simp [Calls.liveZones, live]
    · rw [show s.calls.waiting = [] from empty]
      exact List.nodup_singleton _
  · next x live =>
    rw [Calls.lanes_of_live live] at one free
    split
    · rw [Calls.liveZones_of_live live] at targeted
      exact CallsOk.endLive_some (s := { s with calls := { s.calls with arrival := nextArrival s.calls.arrival } }) live
        targeted _ (List.nodup_cons.mpr ⟨fun mem => free (List.mem_cons_of_mem _ mem), one.of_cons⟩)
    · refine ⟨?_, fun none_live => absurd (live.symm.trans none_live) nofun, targeted⟩
      have lanes : Calls.lanes ⟨s.calls.live, s.calls.waiting ++ [c], nextArrival s.calls.arrival⟩ =
          (x.call.lane :: s.calls.waiting.map (·.lane)) ++ [c.lane] := by
        simp [Calls.lanes, live]
      change (Calls.lanes ⟨s.calls.live, s.calls.waiting ++ [c], nextArrival s.calls.arrival⟩).Nodup
      rw [lanes]
      exact one.append (List.nodup_singleton _) (by simpa using free)

theorem CallsOk.withdraw {s : State} (ok : CallsOk s) (c : Call) :
    CallsOk { s with calls := { s.calls with waiting := s.calls.waiting.erase c } } := by
  obtain ⟨one, idle, targeted⟩ := ok
  refine ⟨?_, fun live => ?_, targeted⟩
  · exact one.sublist ((List.Sublist.refl _).append (List.erase_sublist.map _))
  · have empty := idle live
    simp [empty]

/-! ## The record (R146, R153 to R156) -/

/-- The record's own part of what holds at all times. -/
def Record.Ok (r : Record) : Prop :=
  r.LogOk ∧ r.counters.Ok ∧ r.lost ≤ Config.max16 ∧ r.clock ≤ Config.maxClock

theorem raise_le (c n : Nat) : raise c n ≤ Config.max16 := Nat.min_le_left _ _

theorem bump_le (cap n : Nat) : bump cap n ≤ cap := Nat.min_le_left _ _

theorem Counters.Ok.count {c : Counters} (ok : c.Ok) (d : Detail) : (c.count d).Ok := by
  obtain ⟨gos, stale, void, snapped, live, alarms⟩ := ok
  cases d
  case go => exact ⟨raise_le _ _, stale, void, snapped, live, alarms⟩
  case followGo => exact ⟨raise_le _ _, stale, void, snapped, live, alarms⟩
  case staleGo => exact ⟨gos, raise_le _ _, void, snapped, live, alarms⟩
  case followVoid => exact ⟨gos, stale, raise_le _ _, snapped, live, alarms⟩
  case movesSnapped => exact ⟨gos, stale, void, raise_le _ _, live, alarms⟩
  case callLive => exact ⟨gos, stale, void, snapped, raise_le _ _, alarms⟩
  case alarmSetSilent => exact ⟨gos, stale, void, snapped, live, raise_le _ _⟩
  case alarmSetOver => exact ⟨gos, stale, void, snapped, live, raise_le _ _⟩
  all_goals exact ⟨gos, stale, void, snapped, live, alarms⟩

/-- The kept entries with one more are numbered on without a gap (R156). -/
theorem keepLatest_seq {log : List LogEntry} {written : Nat} {e : LogEntry} (length : log.length = min written Config.logSize)
    (seqs : ∀ i x, log[i]? = some x → x.seq = written - log.length + i) (last : e.seq = written) (i : Nat) (x : LogEntry)
    (h : (keepLatest log e)[i]? = some x) : x.seq = written + 1 - (keepLatest log e).length + i := by
  rw [length_keepLatest]
  unfold keepLatest at h
  rw [List.getElem?_drop] at h
  change log.length = min written 2048 at length
  change (log ++ [e])[log.length + 1 - 2048 + i]? = some x at h
  change x.seq = written + 1 - min (log.length + 1) 2048 + i
  by_cases inside : log.length + 1 - 2048 + i < log.length
  · rw [List.getElem?_append_left inside] at h
    have := seqs _ x h
    omega
  · rw [List.getElem?_append_right (Nat.le_of_not_lt inside)] at h
    obtain ⟨atEnd, rfl⟩ := List.getElem?_eq_some_iff.mp h
    rw [List.getElem_singleton, last]
    rw [List.length_singleton] at atEnd
    omega

theorem Record.LogOk.stored {r : Record} (ok : r.LogOk) (notFull : r.full = false) (running : r.state.inShow = true)
    (lane : LogLane) (cue zone : Option Nat) (d : Detail) (cs : Counters) :
    Record.LogOk { r with
      counters := cs, log := keepLatest r.log ⟨r.written, r.clock, lane, cue, zone, d⟩, written := r.written + 1 } := by
  obtain ⟨length, seqs, hold, clear⟩ := ok
  have numbered := keepLatest_seq (e := ⟨r.written, r.clock, lane, cue, zone, d⟩) length seqs rfl
  have kept : (keepLatest r.log ⟨r.written, r.clock, lane, cue, zone, d⟩).length = min (r.written + 1) Config.logSize := by
    rw [length_keepLatest, length]
    omega
  generalize keepLatest r.log ⟨r.written, r.clock, lane, cue, zone, d⟩ = log at numbered kept
  refine ⟨kept, numbered, fun mode => ?_, fun state => ?_⟩
  · have notHeld : ¬ Config.logSize ≤ r.written := fun le => by
      simp [Record.full, show r.logMode = some .hold from mode, le] at notFull
    exact Nat.lt_of_not_le notHeld
  · rw [show r.state = .clear from state] at running
    cases running

theorem Record.Ok.hand {r : Record} (ok : r.Ok) (lane : LogLane) (cue zone : Option Nat) (d : Detail) :
    (r.hand lane cue zone d).Ok := by
  obtain ⟨log, counters, lost, clock⟩ := ok
  rcases r.hand_cases lane cue zone d with ⟨_, e⟩ | ⟨running, notFull, e⟩ | ⟨_, _, e⟩
  · rw [e]
    exact ⟨log, counters, lost, clock⟩
  · rw [e]
    exact ⟨log.stored notFull running lane cue zone d _, counters.count d, lost, clock⟩
  · rw [e]
    exact ⟨log, counters.count d, bump_le _ _, clock⟩

/-- A record with the log and the counters of another, in no state CLEAR, and with a clock in range. -/
theorem Record.Ok.of_same {r t : Record} (ok : r.Ok) (log : t.log = r.log) (written : t.written = r.written)
    (mode : t.logMode = r.logMode) (counters : t.counters = r.counters) (lost : t.lost = r.lost)
    (state : t.state = .clear → r.state = .clear) (clock : t.clock ≤ Config.maxClock) : t.Ok := by
  obtain ⟨⟨length, seqs, hold, clear⟩, counts, few, _⟩ := ok
  refine ⟨⟨?_, ?_, ?_, fun h => ?_⟩, counters ▸ counts, lost ▸ few, clock⟩
  · rw [log, written]; exact length
  · rw [log, written]; exact seqs
  · rw [mode, written]; exact hold
  · rw [written]; exact clear (state h)

theorem Record.Ok.tickClock {r : Record} (ok : r.Ok) : r.tickClock.Ok := by
  unfold Record.tickClock
  split
  · exact ok.of_same rfl rfl rfl rfl rfl id (bump_le _ _)
  · exact ok

/-- ARM of a CLEAR record, whose log is empty (R142). -/
theorem Record.Ok.armed {r : Record} (ok : r.Ok) (clear : r.state = .clear) (mode : Option StartMode) (log : LogMode)
    (delay : Nat) :
    Record.Ok { r with state := .armed, startMode := mode, logMode := some log, delayRemaining := delay } := by
  obtain ⟨⟨length, seqs, _, empty⟩, counters, lost, clock⟩ := ok
  refine ⟨⟨length, seqs, fun _ => ?_, nofun⟩, counters, lost, clock⟩
  rw [show r.written = 0 from empty clear]
  exact Nat.zero_le _

theorem Record.ok_empty : Record.Ok {} :=
  ⟨⟨rfl, nofun, nofun, fun _ => rfl⟩, ⟨Nat.zero_le _, Nat.zero_le _, Nat.zero_le _, Nat.zero_le _, Nat.zero_le _,
    Nat.zero_le _⟩, Nat.zero_le _, Nat.zero_le _⟩

/-! ## The lanes' counters (R177) -/

theorem bump8_le (n : Nat) : bump8 n ≤ 255 := bump_le 255 n

theorem LaneState.CountsOk.returnHigh {x : LaneState} (ok : x.CountsOk) : x.returnHigh.CountsOk := by
  unfold LaneState.returnHigh
  split
  · exact ok
  · exact ⟨bump8_le _, ok.2⟩
  · exact ok

theorem LaneState.CountsOk.sent {x : LaneState} (ok : x.CountsOk) : x.sent.CountsOk := by
  unfold LaneState.sent
  split
  · exact ok
  · exact ok

theorem LaneState.CountsOk.reset {x : LaneState} (ok : x.CountsOk) : x.reset.CountsOk := by
  obtain ⟨framing, check, truncated, dropped, _⟩ := ok
  exact ⟨framing, check, truncated, dropped, bump8_le _⟩

end Sys2Proof.Machine
end

section
/-! What a step keeps of all that the manual says holds at all times: each operation, each command, and the step. -/

namespace Sys2Proof.Machine

/-- What a change keeps of all that holds at all times (`Sound`), relation by relation; and the show store, unless `unlocked`. -/
structure Keeps (unlocked : Bool) (s t : State) : Prop where
  store : unlocked = false → t.store = s.store
  map : MapOk s → MapOk t
  levels : LevelsOk s → LevelsOk t
  stack : StackOk s → StackOk t
  runs : RunsOk s → RunsOk t
  calls : CallsOk s → CallsOk t
  record : s.record.Ok → t.record.Ok
  lanes : LanesOk s → LanesOk t
  fades : FadesOk s → FadesOk t

namespace Keeps

variable {unlocked : Bool}

theorem refl (s : State) : Keeps unlocked s s := ⟨fun _ => rfl, id, id, id, id, id, id, id, id⟩

theorem trans {s t u : State} (h : Keeps unlocked s t) (g : Keeps unlocked t u) : Keeps unlocked s u where
  store locked := (g.store locked).trans (h.store locked)
  map := g.map ∘ h.map
  levels := g.levels ∘ h.levels
  stack := g.stack ∘ h.stack
  runs := g.runs ∘ h.runs
  calls := g.calls ∘ h.calls
  record := g.record ∘ h.record
  lanes := g.lanes ∘ h.lanes
  fades := g.fades ∘ h.fades

theorem foldl {α : Type} {f : State → α → State} (step : ∀ s x, Keeps unlocked s (f s x)) (xs : List α) (s : State) :
    Keeps unlocked s (xs.foldl f s) := by
  induction xs generalizing s with
  | nil => exact refl s
  | cons x xs ih => exact (step s x).trans (ih _)

/-- Keeping the store as well is more. -/
theorem weaken {s t : State} (h : Keeps unlocked s t) : Keeps true s t := { h with store := nofun }

end Keeps

section
variable {unlocked : Bool} (s : State)

/-! ## Lanes and the record -/

theorem State.onLane_keeps (l : Lane) {f : LaneState → LaneState} (counts : ∀ x : LaneState, x.CountsOk → (f x).CountsOk) :
    Keeps unlocked s (s.onLane l f) :=
  ⟨fun _ => rfl, id, id, id, id, id, id, fun ok m => by
    rw [State.lane_onLane]
    split
    · exact counts _ (ok m)
    · exact ok m, id⟩

theorem State.received_keeps (l : Lane) {f : LaneState → LaneState}
    (counts : ∀ x : LaneState, x.CountsOk → (f x).CountsOk) : Keeps unlocked s (s.received l f) :=
  s.onLane_keeps l fun x ok => by
    split
    · exact counts x ok
    · exact ok

theorem LanesOk.noticeAll {s : State} (ok : LanesOk s) (k : Notice) : LanesOk (s.noticeAll k) := fun m => by
  rw [State.lane_noticeAll]
  exact ok m

theorem State.noticeAll_keeps (k : Notice) : Keeps unlocked s (s.noticeAll k) :=
  ⟨fun _ => rfl, id, id, id, id, id, id, fun ok => ok.noticeAll k, id⟩

theorem State.noticeOthers_keeps (l : Lane) (k : Notice) : Keeps unlocked s (s.noticeOthers l k) := by
  have counts : LanesOk s → LanesOk (s.noticeOthers l k) := fun ok m => by
    rw [State.lane_noticeOthers]
    split
    · exact ok m
    · exact ok m
  cases l <;> exact ⟨fun _ => rfl, id, id, id, id, id, id, counts, id⟩

theorem State.reply_keeps (l : Lane) (f : Frame) (st : Status) (b : List Byte) : Keeps unlocked s (s.reply l f st b) :=
  s.onLane_keeps l fun _ ok => ok

theorem State.answer_keeps (i : Instr) (st : Status) (b : List Byte) : Keeps unlocked s (s.answer i st b) := by
  unfold State.answer
  split
  · exact s.reply_keeps ..
  · exact .refl s

/-- The record changed within what holds of it. -/
theorem State.record_keeps {r : Record} (ok : s.record.Ok → r.Ok) : Keeps unlocked s { s with record := r } :=
  ⟨fun _ => rfl, id, id, id, id, id, ok, id, id⟩

theorem State.report_keeps (lane : LogLane) (cue zone : Option Nat) (d : Detail) : Keeps unlocked s (s.report lane cue zone d) :=
  s.record_keeps fun ok => ok.hand lane cue zone d

theorem State.alarmEvent_keeps (lane : LogLane) (z : Nat) (d : Detail) : Keeps unlocked s (s.alarmEvent lane z d) :=
  (s.report_keeps ..).trans (State.noticeAll_keeps _ _)

theorem State.alarmEventIf_keeps (b : Bool) (lane : LogLane) (z : Nat) (d : Detail) :
    Keeps unlocked s (s.alarmEventIf b lane z d) := by
  unfold State.alarmEventIf
  split
  · exact s.alarmEvent_keeps ..
  · exact .refl s

theorem State.startPerformance_keeps (lane : LogLane) (cue : Option Nat) : Keeps unlocked s (s.startPerformance lane cue) := by
  have started : Keeps unlocked s { s with record := { s.record with state := .running, clock := 0, delayRemaining := 0 } } :=
    s.record_keeps fun ok => ok.of_same rfl rfl rfl rfl rfl nofun (Nat.zero_le _)
  exact (started.trans (State.report_keeps ..)).trans (State.noticeAll_keeps _ _)

/-! ## Points and slots -/

theorem State.onPoint_keeps (p : Nat) {f : Point → Point} (levels : ∀ q : Point, q.LevelOk → (f q).LevelOk)
    (memberships : ∀ q, (f q).membership = q.membership) : Keeps unlocked s (s.onPoint p f) :=
  ⟨fun _ => rfl, id, fun ok => ok.onPoint p levels, id, id, id, id, id,
    fun ok => ok.onPoints [p] memberships⟩

theorem State.setBase_keeps (p : Nat) (x : Int) : Keeps unlocked s (s.setBase p x) :=
  s.onPoint_keeps p (fun _ ok => ok.withBase x) fun _ => rfl

theorem State.setTrim_keeps (p : Nat) (x : Int) : Keeps unlocked s (s.setTrim p x) :=
  s.onPoint_keeps p (fun _ ok => ok.withTrim x) fun _ => rfl

theorem State.onPoints_keeps (ps : List Nat) {f : Point → Point} (levels : ∀ q : Point, q.LevelOk → (f q).LevelOk)
    (memberships : ∀ q, (f q).membership = q.membership) : Keeps unlocked s (s.onPoints ps f) :=
  Keeps.foldl (fun s p => s.onPoint_keeps p levels memberships) ps s

theorem State.jump_keeps (ps : List Nat) (v : Int) (clear : Bool) : Keeps unlocked s (s.onPoints ps (Point.jump v clear)) :=
  s.onPoints_keeps ps (fun _ ok => ok.jump v clear) fun _ => rfl

/-- A change of points, slots, runs, lanes and lines alone. -/
theorem Keeps.of_motion {s t : State} (inputMap : t.inputMap = s.inputMap) (store : t.store = s.store)
    (calls : t.calls = s.calls) (zones : t.zones = s.zones) (record : t.record = s.record) (shrinks : RunsShrink s t)
    (levels : LevelsOk s → LevelsOk t) (lanes : LanesOk s → LanesOk t) (fades : FadesOk s → FadesOk t) : Keeps unlocked s t where
  store _ := store
  map ok := by rw [MapOk, inputMap]; exact ok
  levels := levels
  stack ok := ok.of_same (by rw [store]) shrinks.standby
  runs ok := ok.of_sublist shrinks.cues
  calls ok := ok.of_zones calls zones
  record ok := by rw [record]; exact ok
  lanes := lanes
  fades := fades

theorem State.onRun_keeps (c : Nat) {f : Run → Run} (same : ∀ r, (f r).cue = r.cue) : Keeps unlocked s (s.onRun c f) :=
  .of_motion rfl rfl rfl rfl rfl (s.onRun_shrinks c same) id id id

theorem State.dropRun_keeps (c : Nat) : Keeps unlocked s (s.dropRun c) :=
  .of_motion rfl rfl rfl rfl rfl (s.dropRun_shrinks c) id (fun ok => LanesOk.noticeAll ok .run) id

theorem State.checkCompletion_keeps (c : Nat) : Keeps unlocked s (s.checkCompletion c) := by
  rcases s.checkCompletion_cases c with e | ⟨_, _, _, e⟩
  · rw [e]
    exact .refl s
  · rw [e]
    exact s.dropRun_keeps c

theorem State.freeingReport_keeps (c : Nat) : Keeps unlocked s (s.freeingReport c) :=
  (s.onRun_keeps c Run.slotFreed_cue).trans (State.checkCompletion_keeps _ c)

theorem State.reportFreed_keeps (owner : Option Nat) : Keeps unlocked s (s.reportFreed owner) := by
  cases owner with
  | none => exact .refl s
  | some c => exact s.freeingReport_keeps c

theorem State.snapReport_keeps (owner : Option Nat) (c i n : Nat) : Keeps unlocked s (s.snapReport owner c i n) := by
  cases owner with
  | none => exact s.report_keeps ..
  | some o =>
    exact (s.onRun_keeps o (f := fun r => { r with snapped := r.snapped + n }) fun _ => rfl).trans (State.report_keeps ..)

theorem State.leave_lanesOk (p : Nat) (ok : LanesOk s) : LanesOk (s.leave p) := by
  unfold State.leave
  split
  · exact ok
  · split
    · exact ok
    · dsimp only
      split
      · exact (State.reportFreed_keeps (unlocked := false) _ _).lanes ok
      · exact ok

theorem State.leave_keeps (p : Nat) : Keeps unlocked s (s.leave p) :=
  .of_motion (s.leave_inputMap p) (s.leave_store p) (s.leave_calls p) (s.leave_zones p) (s.leave_record p)
    (s.leave_shrinks p) (fun ok => ok.leave p) (s.leave_lanesOk p) (fun ok => ok.leave p)

theorem State.leaveAll_keeps (ps : List Nat) : Keeps unlocked s (s.leaveAll ps) := Keeps.foldl (fun s p => s.leave_keeps p) ps s

/-- The lowest FREE slot is a FREE slot of the table (R48). -/
theorem State.freeSlot?_free {k : Nat} (h : s.freeSlot? = some k) : k < Config.slots ∧ s.slot k = none := by
  have inside := List.mem_of_find?_eq_some h
  have free := List.find?_some h
  exact ⟨List.mem_range.mp inside, by simpa using free⟩

theorem State.freeSlot?_leaveAll_points (ps : List Nat) : ∀ p ∈ ps, ((s.leaveAll ps).point p).membership = none :=
  fun p mem => by rw [State.point_leaveAll, if_pos mem]

theorem FadesOk.startMove {s : State} (ok : FadesOk s) {k : Nat} (owner : Option Nat) (i : Nat) {ps : List Nat} (v : Int)
    (time : Nat) (curve : Curve) (clear : Bool) (inside : k < Config.slots) (free : s.slot k = none) (some_join : ps ≠ [])
    (out : ∀ p ∈ ps, (s.point p).membership = none) (room : ps.length ≤ s.poolFree) :
    FadesOk (s.startMove k owner i ps v time curve clear) := by
  let moving : FadeSlot := ⟨owner, i, v, time, curve, 0, ps.map fun p => ⟨p, (s.point p).startLevel clear⟩⟩
  have taken : FadesOk ((s.onPoints ps fun q => { q.capture clear with membership := some k }).setSlot k (some moving)) := by
    refine ok.joined inside free some_join out room (f := moving) ?_ (fun q => ?_) fun j => ?_
    · simp [moving, Function.comp_def]
    · exact s.membership_onPoints ps q fun _ => rfl
    · rw [State.slot_setSlot]
      by_cases here : j = k
      · simp [here, inside]
      · rw [if_neg fun both => here both.1, if_neg here]
        unfold State.slot
        rw [State.onPoints_slots]
  cases owner with
  | none => exact taken
  | some c => exact taken

theorem LevelsOk.startMove {s : State} (ok : LevelsOk s) (k : Nat) (owner : Option Nat) (i : Nat) (ps : List Nat) (v : Int)
    (time : Nat) (curve : Curve) (clear : Bool) : LevelsOk (s.startMove k owner i ps v time curve clear) := by
  have captured : LevelsOk (s.onPoints ps fun q => { q.capture clear with membership := some k }) :=
    ok.onPoints ps fun _ level => level.capture clear
  cases owner with
  | none => exact captured
  | some c => exact captured

/-- A LEVEL of points that are in no slot (R45 to R50). -/
theorem State.moveLevels_keeps (owner : Option Nat) (c i : Nat) (ps : List Nat) (v : Int) (time : Nat) (curve : Curve)
    (clear : Bool) (some_move : ps ≠ []) (out : ∀ p ∈ ps, (s.point p).membership = none) :
    Keeps unlocked s (s.moveLevels owner c i ps v time curve clear) := by
  unfold State.moveLevels
  split
  · exact s.jump_keeps ps v clear
  · split
    · next k found =>
      obtain ⟨inside, free⟩ := s.freeSlot?_free found
      split
      · next room =>
        exact .of_motion (State.startMove_inputMap ..) (State.startMove_store ..) (State.startMove_calls ..)
          (State.startMove_zones ..) (State.startMove_record ..) (State.startMove_shrinks ..)
          (fun ok => ok.startMove k owner i ps v time curve clear) (fun ok => by rw [LanesOk, State.startMove_lanes]; exact ok)
          (fun ok => ok.startMove owner i v time curve clear inside free some_move out room)
      · exact (s.jump_keeps ps v clear).trans (State.snapReport_keeps ..)
    · exact (s.jump_keeps ps v clear).trans (State.snapReport_keeps ..)

theorem State.handAction_keeps (owner : Option Nat) (c i : Nat) (a : Action) : Keeps unlocked s (s.handAction owner c i a) := by
  cases a with
  | level g v time curve clear =>
    change Keeps unlocked s (s.levelAction owner c i g v time curve clear)
    unfold State.levelAction
    dsimp only
    split
    · exact .refl s
    · next some_named =>
      exact (s.leaveAll_keeps _).trans (State.moveLevels_keeps _ owner c i _ v time curve clear (by simpa using some_named)
        (s.freeSlot?_leaveAll_points _))
  | route z m =>
    refine ⟨fun _ => rfl, id, id, id, id, fun ok => ok.of_same rfl fun y _ => ?_, id, id, id⟩
    change ((s.onZone z fun x => { x with route := m }).zone y).targeted = _
    rw [State.zone_onZone]
    split <;> rfl
  | mask m on => exact ⟨fun _ => rfl, id, id, id, id, id, id, id, id⟩
  | trigger n mode => exact ⟨fun _ => rfl, id, id, id, id, id, id, id, id⟩
  | halt g => exact s.leaveAll_keeps _

theorem handActions_keeps (owner : Option Nat) (c k : Nat) (acts : List Action) :
    Keeps unlocked s (handActions owner c k acts s) := by
  induction acts generalizing k s with
  | nil => exact .refl s
  | cons a acts ih => exact (s.handAction_keeps owner c k a).trans (ih _ _)

theorem State.dispatch_keeps (c : Nat) : Keeps unlocked s (s.dispatch c) :=
  (((handActions_keeps s (some c) c 0 _).trans (State.onRun_keeps _ c Run.dispatched_cue)).trans
    (State.checkCompletion_keeps _ c)).trans (State.noticeAll_keeps _ _)

theorem LevelsOk.completeMembers {s : State} (ok : LevelsOk s) (f : FadeSlot) : LevelsOk (s.completeMembers f) :=
  ok.onPoints _ fun _ level => level.withBase f.target

theorem State.slot_setSlot_of_used {k : Nat} {f : FadeSlot} (used : s.slot k = some f) (v : Option FadeSlot) (j : Nat) :
    (s.setSlot k v).slot j = if j = k then v else s.slot j := by
  have inside : k < Config.slots := by
    by_contra above
    rw [s.slot_of_le (Nat.le_of_not_lt above)] at used
    cases used
  rw [State.slot_setSlot]
  by_cases here : j = k
  · simp [here, inside]
  · simp [here]

theorem State.completeSlot_keeps (k : Nat) : Keeps unlocked s (s.completeSlot k) := by
  unfold State.completeSlot
  split
  · exact .refl s
  · next f used =>
    refine Keeps.trans ?_ (State.reportFreed_keeps _ f.owner)
    have slots : (s.completeMembers f).slot k = some f := by
      unfold State.slot
      rw [State.completeMembers_slots]
      exact used
    refine .of_motion (s.completeMembers_inputMap f) (s.completeMembers_store f) (s.completeMembers_calls f)
      (s.completeMembers_zones f) (s.completeMembers_record f) (.of_runner (s.completeMembers_runner f))
      (fun ok => ok.completeMembers f) (fun ok => ?_) fun ok => ok.freed used (fun q => ?_) fun j => ?_
    · rw [LanesOk, State.setSlot_lanes, State.completeMembers_lanes]
      exact ok
    · exact s.membership_onPoints _ q fun _ => rfl
    · rw [State.slot_setSlot_of_used _ slots]
      unfold State.slot
      rw [State.completeMembers_slots]

theorem State.writeFade_keeps (f : FadeSlot) (p : Nat) : Keeps unlocked s (s.writeFade f p) :=
  Keeps.foldl (fun s (m : Member) => s.setBase_keeps m.point (fadeBase m.start f.target p)) f.members s

/-- A slot whose elapsed time or owner changes keeps its members. -/
theorem FadesOk.setSlot {s : State} (ok : FadesOk s) {k : Nat} {f g : FadeSlot} (used : s.slot k = some f)
    (members : g.members = f.members) : FadesOk (s.setSlot k (some g)) :=
  ok.of_same (fun _ => rfl) fun j => by
    rw [State.slot_setSlot_of_used s used]
    split
    · next here => rw [here, used, Option.map_some, Option.map_some, members]
    · rfl

theorem State.advanceSlot_keeps (k : Nat) : Keeps unlocked s (s.advanceSlot k) := by
  rcases s.advanceSlot_cases k with ⟨_, e⟩ | ⟨f, used, ⟨_, e⟩ | ⟨_, e⟩⟩
  · rw [e]
    exact .refl s
  · rw [e]
    exact s.completeSlot_keeps k
  · rw [e]
    refine (s.writeFade_keeps f _).trans ⟨fun _ => rfl, id, id, id, id, id, id, id, fun ok => ok.setSlot (f := f) ?_ rfl⟩
    unfold State.slot
    rw [State.writeFade_slots]
    exact used

theorem State.advanceSlots_keeps : Keeps unlocked s s.advanceSlots := Keeps.foldl (fun s k => s.advanceSlot_keeps k) _ s

theorem State.orphan_keeps (c : Nat) : Keeps unlocked s (s.orphan c) := by
  refine ⟨fun _ => rfl, id, id, id, id, id, id, id, fun ok => ok.of_same (fun _ => rfl) fun k => ?_⟩
  by_cases inside : k < Config.slots
  · have slot := Table.getD_mapIdx (fun _ (o : Option FadeSlot) =>
      o.map fun f => if f.owner = some c then { f with owner := none } else f) s.slots k none none inside
    rw [State.slot, State.orphan, slot, State.slot]
    cases s.slots.getD k none with
    | none => rfl
    | some f => dsimp only [Option.map_some]; split <;> rfl
  · rw [State.slot_of_le _ (Nat.le_of_not_lt inside), State.slot_of_le _ (Nat.le_of_not_lt inside)]

theorem State.freezeFades_keeps : Keeps unlocked s s.freezeFades := by
  refine ⟨fun _ => rfl, id, fun ok => (levelsOk_iff _).mpr fun p => ?_, id, id, id, id, id, fun _ => .still (fun p => ?_)
    s.slot_freezeFades⟩
  · rw [State.point_freezeFades]
    exact ok p
  · rw [State.point_freezeFades]

theorem State.stopMotion_keeps : Keeps unlocked s s.stopMotion :=
  s.freezeFades_keeps.trans (.of_motion rfl rfl rfl rfl rfl ⟨rfl, List.nil_sublist _⟩ id id id)

/-! ## GO, follows and beats -/

theorem State.retire_keeps (c : Nat) (cause : RetireCause) (origin : Origin) : Keeps unlocked s (s.retire c cause origin) := by
  unfold State.retire
  split
  · exact .refl s
  · have dropped : ∀ u, Keeps unlocked s u → ∀ d, Keeps unlocked s ((u.dropRun c).report origin.logLane (some c) none d) := fun u h d =>
      (h.trans (State.dropRun_keeps _ c)).trans (State.report_keeps ..)
    refine dropped _ ?_ _
    split
    · exact ((s.orphan_keeps c).trans (handActions_keeps ..)).trans (State.noticeAll_keeps _ _)
    · exact s.orphan_keeps c

theorem State.makeRoom_keeps (c : Nat) (origin : Origin) : Keeps unlocked s (s.makeRoom c origin) := by
  unfold State.makeRoom
  dsimp only
  split
  · exact s.retire_keeps ..
  · split
    · exact (s.retire_keeps ..).trans (State.retire_keeps ..)
    · exact s.retire_keeps ..

/-- Room made and a run joined: the list stays within R89, and standby moves to a cue of the stack or END. -/
theorem State.addRun_makeRoom_keeps (rec : Cue) (origin : Origin) :
    Keeps unlocked s ((s.makeRoom rec.number origin).addRun rec origin) := by
  have room : Keeps unlocked s _ := s.makeRoom_keeps rec.number origin
  refine ⟨room.store, room.map, room.levels, fun ok => ?_, fun ok => ?_, room.calls, room.record, room.lanes, room.fades⟩
  · exact (room.stack ok).nextAfter rfl rec.number rfl
  · obtain ⟨distinct, new, few⟩ := s.makeRoom_runs rec.number origin ok
    exact RunsOk.addRun distinct new few

theorem State.startByCurtain_keeps (rec : Cue) (origin : Origin) : Keeps unlocked s (s.startByCurtain rec origin) := by
  unfold State.startByCurtain
  split
  · exact s.startPerformance_keeps ..
  · exact .refl s

theorem State.recordGo_keeps (rec : Cue) (origin : Origin) : Keeps unlocked s (s.recordGo rec origin) := by
  have marked : Keeps unlocked s { s with runner := { s.runner with lastGo := some ⟨rec.number, origin, s.record.clock⟩ } } :=
    ⟨fun _ => rfl, id, id, id, id, id, id, id, id⟩
  exact ((marked.trans (State.report_keeps ..)).trans (State.noticeAll_keeps _ _)).trans (State.noticeAll_keeps _ _)

theorem State.takeGo_keeps (rec : Cue) (origin : Origin) : Keeps unlocked s (s.takeGo rec origin) := by
  have recorded : Keeps unlocked s _ := ((s.addRun_makeRoom_keeps rec origin).trans (State.startByCurtain_keeps _ rec origin)).trans
    (State.recordGo_keeps _ rec origin)
  unfold State.takeGo
  dsimp only
  split
  · exact recorded.trans (State.dispatch_keeps _ _)
  · exact recorded

theorem State.expireFollow_keeps (c : Nat) : Keeps unlocked s (s.expireFollow c).1 := by
  unfold State.expireFollow
  split
  · exact .refl s
  · split
    · have ended : Keeps unlocked s _ := s.onRun_keeps c (f := fun r => { r with followState := .none, followRemaining := 0 }) fun _ => rfl
      have void := ((ended.trans (State.report_keeps _ .follow (some c) none (.followVoid (s.store.nextAfter c)))).trans
        (State.checkCompletion_keeps _ c)).trans (State.noticeAll_keeps _ .run)
      dsimp only
      split
      · split
        · exact (ended.trans (State.checkCompletion_keeps _ c)).trans (State.takeGo_keeps ..)
        · exact void
      · exact void
    · exact .refl s

theorem takeRuns_keeps {f : Nat → State → State × Option Nat} (each : ∀ c s, Keeps unlocked s (f c s).1) (cues : List Nat) :
    Keeps unlocked s (takeRuns f cues s) := by
  unfold takeRuns
  generalize ([] : List Nat) = gone
  induction cues generalizing s gone with
  | nil => exact .refl s
  | cons c cues ih =>
    rw [List.foldl_cons]
    split
    · exact ih s gone
    · exact (each c s).trans (ih _ _)

theorem State.beatRun_keeps (c : Nat) : Keeps unlocked s (s.beatRun c).1 := by
  unfold State.beatRun
  split
  · exact .refl s
  · split
    · split
      · exact s.expireFollow_keeps c
      · exact s.onRun_keeps c (f := fun r => { r with followRemaining := r.followRemaining - 1 }) fun _ => rfl
    · exact .refl s

/-! ## Zones and calls -/

theorem State.onZone_keeps (z : Nat) {f : Zone → Zone} (targeted : ∀ x, (f x).targeted = x.targeted) :
    Keeps unlocked s (s.onZone z f) :=
  ⟨fun _ => rfl, id, id, id, id, fun ok => ok.of_same rfl fun y _ => by
    rw [State.zone_onZone]
    split
    · exact targeted _
    · rfl, id, id, id⟩

theorem Zone.endRamp_targeted (z : Zone) : z.endRamp.targeted = z.targeted := by
  unfold Zone.endRamp
  split <;> rfl

theorem Zone.tick_targeted (z : Zone) : z.tick.targeted = z.targeted := by
  unfold Zone.tick
  split
  · rfl
  · split
    · exact z.endRamp_targeted
    · rfl

theorem Zone.beginRamp_targeted (z : Zone) (kind : RampKind) (target : Int) (time : Nat) :
    (z.beginRamp kind target time).targeted = z.targeted := by
  unfold Zone.beginRamp
  split <;> rfl

theorem State.depthChanged_targeted (depth : Int) (z : Zone) : (s.depthChanged depth z).targeted = z.targeted := by
  have limited : (if depth < z.duck then { z with duck := depth } else z).targeted = z.targeted := by split <;> rfl
  unfold State.depthChanged
  generalize (if depth < z.duck then { z with duck := depth } else z) = y at limited
  dsimp only
  split
  · split
    · exact (Zone.beginRamp_targeted ..).trans limited
    · split
      · exact (Zone.beginRamp_targeted ..).trans limited
      · exact limited
  · split
    · exact (Zone.beginRamp_targeted ..).trans limited
    · exact limited

theorem State.advanceRamps_keeps : Keeps unlocked s s.advanceRamps :=
  ⟨fun _ => rfl, id, id, id, id, fun ok => ok.of_same rfl fun z below => by
    have tick := Table.getD_mapIdx (fun _ => Zone.tick) s.zones z {} {} below
    rw [State.zone, State.advanceRamps, tick]
    exact Zone.tick_targeted _, id, id, id⟩

/-- A change of the calls, the zones, the record and the lanes alone. -/
theorem Keeps.of_call {s t : State} (inputMap : t.inputMap = s.inputMap) (points : t.points = s.points)
    (slots : t.slots = s.slots) (store : t.store = s.store) (runner : t.runner = s.runner) (calls : CallsOk s → CallsOk t)
    (record : s.record.Ok → t.record.Ok) (lanes : LanesOk s → LanesOk t) : Keeps unlocked s t where
  store _ := store
  map ok := by rw [MapOk, inputMap]; exact ok
  levels ok := (levelsOk_iff t).mpr fun p => by rw [State.point, points]; exact ok p
  stack ok := ok.of_same (by rw [store]) (by rw [runner])
  runs ok := by rw [RunsOk, runner]; exact ok
  calls := calls
  record := record
  lanes := lanes
  fades ok := ok.of_same (fun p => by rw [State.point, State.point, points]) fun k => by rw [State.slot, State.slot, slots]

theorem State.goLive_record (old : ZoneSet) (c : Call) : s.record.Ok → (s.goLive old c).record.Ok := fun ok =>
  ok.hand ..

theorem State.endLive_record (reason : EndReason) (next : Option Call) :
    s.record.Ok → (s.endLive reason next).record.Ok := fun ok => by
  unfold State.endLive
  split
  · exact ok
  · dsimp only
    split
    · exact ok.hand ..
    · exact (ok.hand ..).hand ..

theorem State.goLive_lanesOk (old : ZoneSet) (c : Call) (ok : LanesOk s) : LanesOk (s.goLive old c) :=
  LanesOk.noticeAll ok .call

theorem State.endLive_lanesOk (reason : EndReason) (next : Option Call) (ok : LanesOk s) :
    LanesOk (s.endLive reason next) := by
  unfold State.endLive
  split
  · exact ok
  · dsimp only
    split
    · exact LanesOk.noticeAll ok .call
    · refine LanesOk.noticeAll ?_ .call
      exact State.goLive_lanesOk _ _ _ ok

theorem State.endAndGrant_keeps {x : LiveCall} (live : s.calls.live = some x) (reason : EndReason) :
    Keeps unlocked s (s.endAndGrant reason) := by
  refine .of_call (s.endAndGrant_inputMap reason) (s.endAndGrant_points reason) (s.endAndGrant_slots reason)
    (s.endAndGrant_store reason) (s.endAndGrant_runner reason) (fun ok => ok.endAndGrant live reason) (fun ok => ?_)
    fun ok => ?_
  · unfold State.endAndGrant
    split
    · exact State.endLive_record _ _ _ ok
    · exact State.endLive_record _ _ _ ok
  · unfold State.endAndGrant
    split
    · exact State.endLive_lanesOk _ _ _ ok
    · exact State.endLive_lanesOk _ _ _ ok

theorem State.placeCall_keeps {c : Call} (new : s.calls.holds c.lane = false) : Keeps unlocked s (s.placeCall c) := by
  refine .of_call (s.placeCall_inputMap c) (s.placeCall_points c) (s.placeCall_slots c) (s.placeCall_store c)
    (s.placeCall_runner c) (fun ok => ok.placeCall new) (fun ok => ?_) fun ok => ?_
  · unfold State.placeCall
    dsimp only
    split
    · exact State.goLive_record _ _ _ ok
    · split
      · exact State.endLive_record _ _ _ ok
      · exact ok
  · unfold State.placeCall
    dsimp only
    split
    · exact State.goLive_lanesOk _ _ _ ok
    · split
      · exact State.endLive_lanesOk _ _ _ ok
      · exact LanesOk.noticeAll ok .call

/-! ## The relay watch and the audio -/

theorem State.onWatchZone_keeps (z : Nat) (f : WatchZone → WatchZone) : Keeps unlocked s (s.onWatchZone z f) :=
  ⟨fun _ => rfl, id, id, id, id, id, id, id, id⟩

theorem State.startWindowZone_keeps (z : Nat) : Keeps unlocked s (s.startWindowZone z) := by
  unfold State.startWindowZone
  dsimp only
  split
  · exact s.onWatchZone_keeps ..
  · split
    · exact ((s.onWatchZone_keeps ..).trans (State.alarmEventIf_keeps ..)).trans (State.alarmEventIf_keeps ..)
    · exact s.onWatchZone_keeps ..

theorem State.endWindowZone_keeps (z : Nat) : Keeps unlocked s (s.endWindowZone z) := by
  unfold State.endWindowZone
  dsimp only
  split
  · exact ((s.onWatchZone_keeps ..).trans (State.alarmEventIf_keeps ..)).trans (State.alarmEventIf_keeps ..)
  · exact .refl s

/-- The watch changed, which nothing that holds at all times reads. -/
theorem State.watch_keeps (w : Watch) : Keeps unlocked s { s with watch := w } := ⟨fun _ => rfl, id, id, id, id, id, id, id, id⟩

/-- The audio state changed, which nothing that holds at all times reads. -/
theorem State.audio_keeps (a : Audio) : Keeps unlocked s { s with audio := a } := ⟨fun _ => rfl, id, id, id, id, id, id, id, id⟩

theorem State.endFullWindow_keeps : Keeps unlocked s s.endFullWindow := by
  have found : Keeps unlocked s _ := Keeps.foldl (fun s z => s.endWindowZone_keeps z) (List.range Config.zones) s
  unfold State.endFullWindow
  split
  · exact found.trans (State.watch_keeps ..)
  · exact .refl s

theorem State.restoreClock_keeps : Keeps unlocked s s.restoreClock :=
  ((s.audio_keeps _).trans (State.report_keeps ..)).trans (State.noticeAll_keeps _ _)

theorem State.countGoodPeriod_keeps : Keeps unlocked s s.countGoodPeriod := by
  unfold State.countGoodPeriod
  split
  · split
    · exact s.restoreClock_keeps
    · exact s.audio_keeps _
  · exact .refl s

theorem State.audioFrame_keeps (i0 i1 : List Int) : Keeps unlocked s (s.audioFrame i0 i1) := by
  have measured : ∀ u, Keeps unlocked s u → ∀ a sums,
      Keeps unlocked s ((State.measureFrame { u with audio := a } sums).endFullWindow).countGoodPeriod := fun u h a sums =>
    (((h.trans (u.audio_keeps a)).trans (State.watch_keeps _ _)).trans (State.endFullWindow_keeps _)).trans
      (State.countGoodPeriod_keeps _)
  unfold State.audioFrame
  refine measured _ ?_ _ _
  split
  · exact Keeps.foldl (fun s z => s.startWindowZone_keeps z) _ s
  · exact .refl s

theorem State.faultOnset_keeps : Keeps unlocked s s.faultOnset := by
  have lost : Keeps unlocked s { s with
      audio := { s.audio.lose with faultCount := bump Config.max16 s.audio.faultCount, faultMs := 0 },
      watch := { s.watch with faultSeen := true } } := ⟨fun _ => rfl, id, id, id, id, id, id, id, id⟩
  exact (lost.trans (State.report_keeps ..)).trans (State.noticeAll_keeps _ _)

theorem State.ackZone_keeps (lane : Lane) (z : Nat) : Keeps unlocked s (s.ackZone lane z) := by
  unfold State.ackZone
  split
  · exact (s.onWatchZone_keeps ..).trans (State.alarmEvent_keeps ..)
  · exact .refl s

/-! ## The store, staging and resets -/

theorem State.setBuffer_keeps (l : Lane) (v : Option Image) : Keeps unlocked s (s.setBuffer l v) := by
  rw [s.setBuffer_frame]
  exact ⟨fun _ => rfl, id, id, id, id, id, id, id, id⟩

/-- The store changed in its groups and setups alone. -/
theorem State.store_keeps {st : Store} (cues : st.cues = s.store.cues) : Keeps true s { s with store := st } :=
  ⟨nofun, id, id, fun ok => ok.of_same cues rfl, id, id, id, id, id⟩

/-- A change of the stack, standby, ducks, ramps, and lanes alone. -/
theorem Keeps.of_commit {s t : State} (inputMap : t.inputMap = s.inputMap) (points : t.points = s.points)
    (slots : t.slots = s.slots) (calls : t.calls = s.calls) (record : t.record = s.record)
    (runs : t.runner.runs = s.runner.runs) (stack : StackOk s → StackOk t)
    (targeted : ∀ z, z < Config.zones → (t.zone z).targeted = (s.zone z).targeted) (lanes : LanesOk s → LanesOk t) :
    Keeps true s t where
  store := nofun
  map ok := by rw [MapOk, inputMap]; exact ok
  levels ok := (levelsOk_iff t).mpr fun p => by rw [State.point, points]; exact ok p
  stack := stack
  runs ok := by rw [RunsOk, runs]; exact ok
  calls ok := ok.of_same calls targeted
  record ok := by rw [record]; exact ok
  lanes := lanes
  fades ok := ok.of_same (fun p => by rw [State.point, State.point, points]) fun k => by rw [State.slot, State.slot, slots]

theorem State.setStandby_lanesOk (x : Option Nat) (ok : LanesOk s) : LanesOk (s.setStandby x) := by
  unfold State.setStandby
  dsimp only
  split
  · exact ok
  · exact LanesOk.noticeAll ok .standby

theorem State.setStandby_keeps (x : Option Nat) (stack : StackOk s → StackOk (s.setStandby x)) :
    Keeps unlocked s (s.setStandby x) := by
  have moved : Keeps true s (s.setStandby x) :=
    .of_commit (s.setStandby_inputMap x) (s.setStandby_points x) (s.setStandby_slots x) (s.setStandby_calls x)
      (s.setStandby_record x) (by rw [State.setStandby_frame]) stack
      (fun z _ => by rw [State.zone, State.setStandby_zones]; rfl) (s.setStandby_lanesOk x)
  exact { moved with store := fun _ => s.setStandby_store x }

theorem State.commitCue_keeps (c : Cue) : Keeps true s (s.commitCue c) := by
  refine .of_commit (s.commitCue_inputMap c) (s.commitCue_points c) (s.commitCue_slots c) (s.commitCue_calls c)
    (s.commitCue_record c) ?_ (fun ok => ok.commitCue c) (fun z _ => by rw [State.zone, State.commitCue_zones]; rfl)
    fun ok => ?_
  · unfold State.commitCue
    dsimp only
    split
    · rw [State.setStandby_frame]
    · rfl
  · unfold State.commitCue
    dsimp only
    split
    · exact State.setStandby_lanesOk _ _ ok
    · exact ok

theorem State.commitRemoveCue_keeps (n : Nat) : Keeps true s (s.commitRemoveCue n) := by
  refine .of_commit (s.commitRemoveCue_inputMap n) (s.commitRemoveCue_points n) (s.commitRemoveCue_slots n)
    (s.commitRemoveCue_calls n) (s.commitRemoveCue_record n) ?_ (fun ok => ok.commitRemoveCue n)
    (fun z _ => by rw [State.zone, State.commitRemoveCue_zones]; rfl) fun ok => ?_
  · unfold State.commitRemoveCue
    dsimp only
    split
    · rw [State.setStandby_frame]
    · rfl
  · unfold State.commitRemoveCue
    dsimp only
    split
    · exact State.setStandby_lanesOk _ _ ok
    · exact ok

theorem State.commitZoneSetup_keeps (z : Nat) (v : ZoneSetup) : Keeps true s (s.commitZoneSetup z v) := by
  have stored : Keeps true s { s with store := s.store.putZoneSetup z v } := s.store_keeps rfl
  unfold State.commitZoneSetup
  dsimp only
  split
  · exact stored
  · exact stored.trans (State.onZone_keeps _ z fun x => State.depthChanged_targeted _ v.duckDepth x)

theorem State.commitImage_keeps (m : Image) : Keeps true s (s.commitImage m) := by
  unfold State.commitImage
  split
  · exact s.commitCue_keeps _
  · exact s.store_keeps rfl
  · exact s.commitZoneSetup_keeps ..
  · exact s.store_keeps rfl
  · exact s.store_keeps rfl
  · exact s.commitRemoveCue_keeps _
  · exact s.store_keeps rfl
  · exact .refl s

theorem State.takeCommit_keeps (lane : Lane) (m : Image) : Keeps true s (s.takeCommit lane m) :=
  ((s.commitImage_keeps m).trans (State.setBuffer_keeps ..)).trans (State.noticeOthers_keeps ..)

theorem State.endCalls_keeps : Keeps unlocked s s.endCalls := by
  refine ⟨fun _ => rfl, id, id, id, id, fun _ => ⟨List.nodup_nil, fun _ => rfl, fun z below => ?_⟩, id, id, id⟩
  have still := Table.getD_mapIdx (fun _ (z : Zone) => { z with duck := 0, ramp := none, targeted := false }) s.zones z {} {}
    below
  rw [State.zone, State.endCalls, still]
  exact (BitVec.getLsbD_zero ..).symm

theorem State.engineReset_keeps (l : Lane) : Keeps unlocked s (s.engineReset l) := by
  have still : Keeps unlocked s _ := (((s.report_keeps (.lane l) none none s.resetDetail).trans (State.stopMotion_keeps _)).trans
    (State.endCalls_keeps _)).trans (State.watch_keeps _ (State.clearQuiet (State.endCalls (State.stopMotion
      (s.report (.lane l) none none s.resetDetail)))).watch)
  refine still.trans ⟨fun _ => rfl, id, id, id, id, id, id, fun ok m => ?_, id⟩
  have own := ok m
  rw [State.engineReset, PerLane.get_map]
  exact own

end

/-- What power-on leaves is sound; the causes and the queue are of no account (R184). -/
theorem sound_of_reset {t : State} (inputMap : t.inputMap = State.reset.inputMap) (points : t.points = State.reset.points)
    (slots : t.slots = State.reset.slots) (store : t.store = {}) (runner : t.runner = {}) (calls : t.calls = {})
    (zones : t.zones = State.reset.zones) (record : t.record = {}) (lanes : t.lanes = State.reset.lanes) : Sound t := by
  have point : ∀ p, t.point p = {} := fun p => by
    rw [State.point, points]
    exact Table.getD_replicate_same ..
  have slot : ∀ k, t.slot k = none := fun k => by
    rw [State.slot, slots]
    exact Table.getD_replicate_same ..
  refine ⟨?_, (levelsOk_iff t).mpr fun p => ?_, ⟨?_, fun c h => ?_⟩, ?_, ⟨?_, fun _ => ?_, fun z below => ?_⟩, ?_, fun m => ?_,
    .still (fun p => by rw [point p]) slot⟩
  · rw [MapOk, inputMap]
    exact .of_eq (List.map_id _)
  · rw [point p]
    unfold Point.LevelOk
    decide
  · rw [store]
    exact .nil
  · rw [runner] at h
    cases h
  · rw [RunsOk, runner]
    exact ⟨List.nodup_nil, Nat.zero_le _⟩
  · rw [calls]
    exact List.nodup_nil
  · rw [calls]
  · rw [State.zone, zones, calls]
    exact (congrArg Zone.targeted (Table.getD_replicate _ _ _ _ below)).trans (BitVec.getLsbD_zero ..).symm
  · rw [RecordOk, record]
    exact Record.ok_empty
  · rw [lanes]
    unfold LaneState.CountsOk
    cases m <;> decide

theorem Keeps.of_sound (s : State) {t : State} (sound : Sound t) : Keeps true s t := by
  obtain ⟨map, levels, stack, runs, calls, record, lanes, fades⟩ := sound
  exact ⟨nofun, fun _ => map, fun _ => levels, fun _ => stack, fun _ => runs, fun _ => calls, fun _ => record, fun _ => lanes,
    fun _ => fades⟩

end Sys2Proof.Machine
end

section
/-! The millisecond, every command and the step keep what holds at all times; and a step of a running performance keeps the
store. -/

namespace Sys2Proof.Machine

/-! ## The millisecond -/

section
variable {unlocked : Bool} (s : State)

theorem State.tickDelay_keeps : Keeps unlocked s s.tickDelay := by
  unfold State.tickDelay
  split
  · split
    · exact s.startPerformance_keeps ..
    · exact s.record_keeps fun ok => ok.of_same rfl rfl rfl rfl rfl id ok.2.2.2
  · exact .refl s

theorem State.tickRuns_keeps : Keeps unlocked s s.tickRuns := by
  refine .of_motion rfl rfl rfl rfl rfl ⟨rfl, ?_⟩ id id id
  have cues : s.tickRuns.runCues = s.runCues := by
    unfold State.runCues State.tickRuns
    rw [List.map_map]
    rfl
  rw [cues]

theorem State.tickCall_keeps : Keeps unlocked s s.tickCall := by
  refine ⟨fun _ => rfl, id, id, id, id, fun ok => ?_, id, id, id⟩
  obtain ⟨one, idle, targeted⟩ := ok
  unfold CallsOk State.tickCall
  cases live : s.calls.live with
  | none =>
    rw [Calls.lanes, live] at one
    simp only [Calls.liveZones, live] at targeted
    exact ⟨one, fun _ => idle live, targeted⟩
  | some x =>
    rw [Calls.lanes_of_live live] at one
    rw [Calls.liveZones_of_live live] at targeted
    exact ⟨one, nofun, targeted⟩

theorem State.dispatchDue_keeps (c : Nat) : Keeps unlocked s (s.dispatchDue c) := by
  unfold State.dispatchDue
  split
  · exact .refl s
  · split
    · exact s.dispatch_keeps c
    · exact .refl s

theorem State.takeDue_keeps (preWaits follows : List Nat) : Keeps unlocked s (s.takeDue preWaits follows) :=
  (Keeps.foldl (fun s c => s.dispatchDue_keeps c) preWaits s).trans
    (takeRuns_keeps _ (fun c s => s.expireFollow_keeps c) follows)

theorem State.timeoutDue_keeps : Keeps unlocked s s.timeoutDue := by
  unfold State.timeoutDue
  split
  · exact .refl s
  · next live =>
    split
    · exact s.endAndGrant_keeps live .timeout
    · exact .refl s

theorem State.tick_keeps : Keeps unlocked s s.tick := by
  have clocked : Keeps unlocked s { s with timeBase := s.timeBase + 1, audio := s.audio.tick, record := s.record.tickClock } :=
    ⟨fun _ => rfl, id, id, id, id, id, fun ok => ok.tickClock, id, id⟩
  have moved := ((clocked.trans (State.tickDelay_keeps _)).trans (State.tickRuns_keeps _)).trans (State.advanceSlots_keeps _)
  have lined : ∀ u : State, Keeps unlocked u u.tickLines := fun u => ⟨fun _ => rfl, id, id, id, id, id, id, id, id⟩
  exact ((((moved.trans (lined _)).trans (State.advanceRamps_keeps _)).trans (State.tickCall_keeps _)).trans
    (State.takeDue_keeps ..)).trans (State.timeoutDue_keeps _)

end

/-! ## Outcomes -/

/-- The next state, if the outcome is one, is as `P` says. -/
def Ends (P : State → Prop) (o : Host.Outcome State Fault Refusal) : Prop := ∀ t, o = .next t → P t

namespace Ends

variable {P : State → Prop}

theorem next {t : State} (h : P t) : Ends P (.next t) := by
  rintro _ ⟨⟩
  exact h

theorem ite {p : Prop} [Decidable p] {x y : Host.Outcome State Fault Refusal} (hx : p → Ends P x) (hy : ¬ p → Ends P y) :
    Ends P (if p then x else y) := by
  split
  · next h => exact hx h
  · next h => exact hy h

theorem role {l : Lane} {i : Instr} {s k : State} (refused : P (s.answer i .refusedRole [])) (taken : P k) :
    Ends P (fullOnly l i s k) := by
  cases l
  · exact .next taken
  · exact .next taken
  · exact .next refused

theorem of_answersAlone {s : State} {i : Instr} {o : Host.Outcome State Fault Refusal} (h : AnswersAlone s i o)
    (answered : ∀ st b, P (s.answer i st b)) : Ends P o := by
  obtain ⟨st, b, rfl⟩ := h
  exact .next (answered st b)

end Ends

/-- The command may change the show store. -/
def changesStore : Instr → Bool
  | .powerOn => true
  | .resetPin => true
  | .stageCommit .. => true
  | .goodFrame .. => true
  | _ => false

/-! ## The requests -/

section
variable {unlocked : Bool} (s : State)

theorem Ends.fullOnly_keeps {l : Lane} {i : Instr} {k : State} (taken : Keeps unlocked s k) :
    Ends (Keeps unlocked s) (fullOnly l i s k) := .role (s.answer_keeps ..) taken

theorem Ends.answer_keeps {u : State} (h : Keeps unlocked s u) {i : Instr} {st : Status} {b : List Byte} :
    Ends (Keeps unlocked s) (.next (u.answer i st b)) := .next (h.trans (u.answer_keeps i st b))

theorem levelRequest_keeps (i : Instr) (all : Bool) (g : Target) (clamped : List Nat → State → Bool)
    {change : Nat → State → State} (each : ∀ p s, Keeps unlocked s (change p s)) :
    Keeps unlocked s (levelRequest i all g clamped change s) := by
  unfold levelRequest
  split
  · exact s.answer_keeps ..
  · next ps _ =>
    have changed : Keeps unlocked s (ps.foldl (fun s p => change p s) s) := Keeps.foldl (fun s p => each p s) ps s
    unfold levelReply
    dsimp only
    split
    · exact changed.trans (State.answer_keeps ..)
    · exact changed.trans (State.answer_keeps ..)

variable (l : Lane) (tag : Byte)

theorem execLevelSet_keeps (g : Target) (v : Int) : Ends (Keeps unlocked s) (execLevelSet l tag g v s) :=
  .fullOnly_keeps s (levelRequest_keeps s _ _ _ _ fun p s => (s.setBase_keeps p v).trans (State.leave_keeps _ p))

theorem execTrimNudge_keeps (g : Target) (v : Int) : Ends (Keeps unlocked s) (execTrimNudge l tag g v s) :=
  .fullOnly_keeps s (levelRequest_keeps s _ _ _ _ fun p s => s.onPoint_keeps p (fun _ ok => ok.withTrim _) fun _ => rfl)

theorem execTrimSet_keeps (g : Target) (v : Int) : Ends (Keeps unlocked s) (execTrimSet l tag g v s) :=
  .fullOnly_keeps s (levelRequest_keeps s _ _ _ _ fun p s => s.setTrim_keeps p v)

theorem execTrimClear_keeps (g : Target) : Ends (Keeps unlocked s) (execTrimClear l tag g s) :=
  .fullOnly_keeps s (levelRequest_keeps s _ _ _ _ fun p s => s.setTrim_keeps p 0)

/-- Two entries of a list exchanged are the same entries in another order. -/
theorem perm_exchange (xs : List Nat) (x y : Nat) (hx : x < xs.length) (hy : y < xs.length) :
    ((xs.set x xs[y]).set y xs[x]).Perm xs := List.set_set_perm hx hy

theorem MapOk.swapInputs {s : State} (ok : MapOk s) {x y : Nat} (hx : x < Config.sources) (hy : y < Config.sources) :
    MapOk (s.swapInputs x y) := by
  have size := s.inputMap.size_eq
  have swapped : (s.swapInputs x y).inputMap.toList =
      ((s.inputMap.toList.set x s.inputMap.toList[y]).set y s.inputMap.toList[x]) := by
    simp [State.swapInputs, Table.update, Table.getD, size, hx, hy, List.modify_eq_set]
  rw [MapOk, swapped]
  exact (perm_exchange _ x y (by rwa [size]) (by rwa [size])).trans ok

theorem execInputSwap_keeps (x y : Nat) : Ends (Keeps unlocked s) (execInputSwap l tag x y s) := by
  refine .fullOnly_keeps s ?_
  split
  · exact s.answer_keeps ..
  · next range =>
    have swapped : Keeps unlocked s (s.swapInputs x y) := by
      refine ⟨fun _ => rfl, fun ok => ok.swapInputs ?_ ?_, id, id, id, id, id, id, id⟩
      · by_contra out
        exact range (by simp [Nat.le_of_not_lt out])
      · by_contra out
        exact range (by simp [Nat.le_of_not_lt out])
    dsimp only
    split
    · exact s.answer_keeps ..
    · exact (swapped.trans (State.report_keeps ..)).trans (State.answer_keeps ..)

theorem execInputRestore_keeps : Ends (Keeps unlocked s) (execInputRestore l tag s) := by
  have restored : Keeps unlocked s { s with inputMap := .tabulate _ id } :=
    ⟨fun _ => rfl, fun _ => .of_eq (List.map_id _), id, id, id, id, id, id, id⟩
  refine .fullOnly_keeps s ?_
  split
  · exact s.answer_keeps ..
  · exact (restored.trans (State.report_keeps ..)).trans (State.answer_keeps ..)

theorem execMixMask_keeps (m v : Nat) : Ends (Keeps unlocked s) (execMixMask l tag m v s) := by
  have masked : ∀ on, Keeps unlocked s (s.setMask m on) := fun on => ⟨fun _ => rfl, id, id, id, id, id, id, id, id⟩
  refine .fullOnly_keeps s ?_
  split
  · exact s.answer_keeps ..
  · split
    · exact s.answer_keeps ..
    · exact (masked _).trans (State.answer_keeps ..)

theorem execGo_keeps (e : Option Nat) : Ends (Keeps unlocked s) (execGo l tag e s) := by
  unfold execGo
  dsimp only
  split
  · exact .next (s.answer_keeps ..)
  · split
    · exact .next (s.answer_keeps ..)
    · refine .ite (fun _ => ?_) fun _ => .ite (fun _ => ?_) fun _ => ?_
      · exact .next ((s.report_keeps ..).trans (State.answer_keeps ..))
      · exact .next ((s.takeGo_keeps ..).trans (State.answer_keeps ..))
      · exact .next (s.answer_keeps ..)

theorem execPreWaitEnd_keeps (c : Nat) : Ends (Keeps unlocked s) (execPreWaitEnd c s) := by
  unfold execPreWaitEnd
  split
  · exact .next (.refl s)
  · refine .next ?_
    split
    · exact s.dispatch_keeps c
    · exact .refl s

theorem execBeat_keeps : Ends (Keeps unlocked s) (execBeat s) := by
  have counted : Keeps unlocked s { s with runner := { s.runner with
      beatCounter := (s.runner.beatCounter + 1) % 65536, lastBeat := some s.timeBase } } :=
    ⟨fun _ => rfl, id, id, id, id, id, id, id, id⟩
  exact .ite (fun _ => .next (counted.trans (takeRuns_keeps _ (fun c s => s.beatRun_keeps c) _))) fun _ => .next (.refl s)

theorem execStandbySet_keeps (c : Nat) : Ends (Keeps unlocked s) (execStandbySet l tag c s) := by
  refine .fullOnly_keeps s ?_
  split
  · next held =>
    refine (s.setStandby_keeps (some c) fun ok => StackOk.setStandby ok.1 ?_).trans (State.answer_keeps ..)
    rintro _ ⟨⟩
    obtain ⟨rec, found⟩ := Option.isSome_iff_exists.mp held
    exact ⟨rec, s.store.cue?_mem c rec found, s.store.cue?_number c rec found⟩
  · exact s.answer_keeps ..

theorem execPanic_keeps : Ends (Keeps unlocked s) (execPanic l tag s) :=
  .answer_keeps s (((s.stopMotion_keeps.trans (State.report_keeps ..)).trans (State.noticeAll_keeps _ _)).trans
    (State.noticeAll_keeps _ _))

theorem execZoneRoute_keeps (z m : Nat) : Ends (Keeps unlocked s) (execZoneRoute l tag z m s) := by
  have routed : ∀ mix, Keeps unlocked s (s.setRoute z mix) := fun mix =>
    s.onZone_keeps z (f := fun x => { x with route := mix }) fun _ => rfl
  refine .fullOnly_keeps s ?_
  split
  · exact s.answer_keeps ..
  · split
    · exact s.answer_keeps ..
    · exact (routed _).trans (State.answer_keeps ..)

theorem execCallOpen_keeps (k : Nat) (zones : ZoneSet) (v : Int) : Ends (Keeps unlocked s) (execCallOpen l tag k zones v s) := by
  unfold execCallOpen
  dsimp only
  split
  · exact .next (s.answer_keeps ..)
  · refine .ite (fun _ => .next (s.answer_keeps ..)) fun _ => .ite (fun _ => .next (s.answer_keeps ..)) fun new => ?_
    exact .next ((s.placeCall_keeps (by simpa using new)).trans (State.answer_keeps ..))

theorem execCallClose_keeps : Ends (Keeps unlocked s) (execCallClose l tag s) := by
  unfold execCallClose
  dsimp only
  split
  · next x found =>
    have live : s.calls.live = some x := (Option.filter_eq_some_iff.mp found).1
    exact .next ((s.endAndGrant_keeps live .closed).trans (State.answer_keeps ..))
  · split
    · next c _ =>
      have gone : Keeps unlocked s { s with calls := { s.calls with waiting := s.calls.waiting.erase c } } :=
        ⟨fun _ => rfl, id, id, id, id, fun ok => ok.withdraw c, id, id, id⟩
      exact .next ((gone.trans (State.noticeAll_keeps _ .call)).trans (State.answer_keeps ..))
    · exact .next (s.answer_keeps ..)

theorem execCallTimeout_keeps : Ends (Keeps unlocked s) (execCallTimeout s) := by
  refine .next ?_
  split
  · exact .refl s
  · next live => exact s.endAndGrant_keeps live .timeout

theorem execAudioFrame_keeps (i0 i1 : List Int) : Ends (Keeps unlocked s) (execAudioFrame i0 i1 s) := by
  refine .next ?_
  split
  · exact .refl s
  · exact s.audioFrame_keeps i0 i1
  · exact s.audioFrame_keeps i0 i1

theorem execClockLoss_keeps : Ends (Keeps unlocked s) (execClockLoss s) := by
  refine .next ?_
  split
  · exact s.faultOnset_keeps
  · exact s.audio_keeps _
  · exact .refl s

theorem execClockReturn_keeps : Ends (Keeps unlocked s) (execClockReturn s) := by
  refine .next ?_
  split
  · exact s.audio_keeps _
  · exact .refl s
  · exact .refl s

theorem execAudioRestored_keeps : Ends (Keeps unlocked s) (execAudioRestored s) := by
  refine .next ?_
  split
  · exact s.restoreClock_keeps
  · exact .refl s
  · exact .refl s

theorem execAlarmsAck_keeps (zones : ZoneSet) : Ends (Keeps unlocked s) (execAlarmsAck l tag zones s) := by
  refine .fullOnly_keeps s ?_
  split
  · exact s.answer_keeps ..
  · exact (Keeps.foldl (fun s z => s.ackZone_keeps l z) _ s).trans (State.answer_keeps ..)

theorem execArm_keeps (mode delay : Nat) : Ends (Keeps unlocked s) (execArm l tag mode delay s) := by
  unfold execArm
  dsimp only
  split
  · exact .next (s.answer_keeps ..)
  · refine .ite (fun _ => .next (s.answer_keeps ..)) fun _ => .ite (fun _ => .next (s.answer_keeps ..)) fun state => ?_
    refine .answer_keeps s ?_
    have noticed : ∀ mode log delay, Keeps unlocked s (State.noticeAll .performance { s with record := { s.record with
        state := .armed, startMode := mode, logMode := some log, delayRemaining := delay } }) := fun _ _ _ =>
      (s.record_keeps fun ok => ok.armed (by simpa using state) _ _ _).trans (State.noticeAll_keeps ..)
    split
    · exact (noticed ..).trans (State.startPerformance_keeps ..)
    · exact noticed ..

theorem execDelayExpiry_keeps : Ends (Keeps unlocked s) (execDelayExpiry s) := by
  refine .next ?_
  split
  · exact s.startPerformance_keeps ..
  · exact .refl s

/-- The record may go to any state but CLEAR with any intervals. -/
theorem State.inShow_keeps (st : PerfState) (held : st ≠ .clear) (intervals : List Interval) :
    Keeps unlocked s { s with record := { s.record with state := st, intervals := intervals } } :=
  s.record_keeps fun ok => ok.of_same rfl rfl rfl rfl rfl (fun clear => absurd clear held) ok.2.2.2

theorem execIntervalBegin_keeps : Ends (Keeps unlocked s) (execIntervalBegin l tag s) := by
  refine .ite (fun _ => .next (s.answer_keeps ..)) fun _ => .ite (fun _ => .next (s.answer_keeps ..)) fun _ => ?_
  refine .answer_keeps s ?_
  have opened := s.inShow_keeps (unlocked := unlocked) .interval (by decide) (s.record.intervals ++
    [{ number := s.record.intervals.length + 1, beginTime := s.record.clock, endTime := none }])
  exact (opened.trans (State.report_keeps ..)).trans (State.noticeAll_keeps _ .performance)

theorem execIntervalEnd_keeps : Ends (Keeps unlocked s) (execIntervalEnd l tag s) := by
  refine .ite (fun _ => .next (s.answer_keeps ..)) fun _ => ?_
  refine .answer_keeps s ?_
  have closed := s.inShow_keeps (unlocked := unlocked) .running (by decide) (closeIntervals s.record.clock s.record.intervals)
  exact (closed.trans (State.report_keeps ..)).trans (State.noticeAll_keeps _ .performance)

theorem State.endPerformance_keeps : Keeps unlocked s (s.endPerformance l) :=
  ((s.report_keeps ..).trans (State.inShow_keeps _ .finished (by decide) _)).trans (State.noticeAll_keeps _ .performance)

theorem State.abandonPerformance_keeps : Keeps unlocked s s.abandonPerformance := by
  have finished : Keeps unlocked s { s with record := { s.record with
      state := .finished, neverStarted := true, delayRemaining := 0 } } :=
    s.record_keeps fun ok => ok.of_same rfl rfl rfl rfl rfl (by simp) ok.2.2.2
  exact finished.trans (State.noticeAll_keeps _ .performance)

theorem execFinish_keeps : Ends (Keeps unlocked s) (execFinish l tag s) := by
  unfold execFinish
  dsimp only
  split
  · exact .answer_keeps s (s.endPerformance_keeps l)
  · exact .answer_keeps s (s.endPerformance_keeps l)
  · exact .answer_keeps s s.abandonPerformance_keeps
  · exact .next (s.answer_keeps ..)
  · exact .next (s.answer_keeps ..)

theorem execRecordClear_keeps : Ends (Keeps unlocked s) (execRecordClear l tag s) := by
  unfold execRecordClear
  dsimp only
  split
  · exact .answer_keeps s ((s.record_keeps fun _ => Record.ok_empty).trans (State.noticeAll_keeps _ .performance))
  all_goals exact .next (s.answer_keeps ..)

theorem execStageBegin_keeps (g : Nat) (h : StageHeader) (n : Nat) : Ends (Keeps unlocked s) (execStageBegin l tag g h n s) := by
  refine .fullOnly_keeps s ?_
  split
  · exact (s.setBuffer_keeps ..).trans (State.answer_keeps ..)
  · exact s.answer_keeps ..

theorem execStageAdd_keeps (items : List Byte) : Ends (Keeps unlocked s) (execStageAdd l tag items s) := by
  refine .fullOnly_keeps s ?_
  split
  · exact s.answer_keeps ..
  · split
    · exact s.answer_keeps ..
    · split
      · exact s.answer_keeps ..
      · exact (s.setBuffer_keeps ..).trans (State.answer_keeps ..)

theorem execStageCommit_keeps (k g n e : Nat) : Ends (Keeps true s) (execStageCommit l tag k g n e s) := by
  refine .fullOnly_keeps s ?_
  split
  · exact s.answer_keeps ..
  · exact .refl s
  · exact (s.takeCommit_keeps ..).trans (State.answer_keeps ..)

theorem execLaneReset_keeps : Ends (Keeps unlocked s) (execLaneReset l s) := by
  refine .next ?_
  split
  · exact .refl s
  · exact (s.onLane_keeps l fun _ ok => ok.reset).trans (State.setBuffer_keeps ..)

theorem execCausesClear_keeps : Ends (Keeps unlocked s) (execCausesClear l tag s) := by
  have cleared : Keeps unlocked s { s with causes := {} } := ⟨fun _ => rfl, id, id, id, id, id, id, id, id⟩
  exact .fullOnly_keeps s (cleared.trans (State.answer_keeps ..))

theorem State.setLine_keeps (n : Nat) (v : LineState) : Keeps unlocked s (s.setLine n v) := ⟨fun _ => rfl, id, id, id, id, id, id, id, id⟩

/-- Every command but GOOD_FRAME keeps what holds at all times. -/
theorem exec_keeps (i : Instr) (noFrame : ∀ l f, i ≠ .goodFrame l f) : Ends (Keeps (changesStore i) s) (exec i s) := by
  have read : ∀ {u i o}, AnswersAlone s i o → Ends (Keeps u s) o := fun h => .of_answersAlone h fun _ _ => s.answer_keeps ..
  cases i with
  | powerOn => exact .next (.of_sound s (sound_of_reset rfl rfl rfl rfl rfl rfl rfl rfl rfl))
  | resetPin => exact .next (.of_sound s (sound_of_reset rfl rfl rfl rfl rfl rfl rfl rfl rfl))
  | goodFrame l f => exact absurd rfl (noFrame l f)
  | checkError l f r =>
    exact .next (s.received_keeps l fun _ ok => ⟨ok.1, bump8_le _, ok.2.2⟩)
  | framingError l => exact .next (s.received_keeps l fun _ ok => ok)
  | frameTruncated l cause =>
    exact .next (s.received_keeps l fun _ ok => ⟨ok.1, ok.2.1, bump8_le _, ok.2.2.2⟩)
  | frameGap l => exact .next (s.received_keeps l fun _ ok => ⟨ok.1, ok.2.1, bump8_le _, ok.2.2.2⟩)
  | replySent l => exact .next (s.onLane_keeps l fun _ ok => ok.sent)
  | laneReset l => exact execLaneReset_keeps s l
  | levelSet l tag g v => exact execLevelSet_keeps s l tag g v
  | trimNudge l tag g v => exact execTrimNudge_keeps s l tag g v
  | trimSet l tag g v => exact execTrimSet_keeps s l tag g v
  | trimClear l tag g => exact execTrimClear_keeps s l tag g
  | levelRead l tag p n => exact read (execLevelRead_answers l tag p n s)
  | inputSwap l tag x y => exact execInputSwap_keeps s l tag x y
  | inputRestore l tag => exact execInputRestore_keeps s l tag
  | inputMapRead l tag => exact .next (s.answer_keeps ..)
  | mixMask l tag m v => exact execMixMask_keeps s l tag m v
  | audioStatus l tag => exact .next (s.answer_keeps ..)
  | fadeStatus l tag k n => exact read (execFadeStatus_answers l tag k n s)
  | cueList l tag x n => exact read (execCueList_answers l tag x n s)
  | cueRead l tag c x => exact read (execCueRead_answers l tag c x s)
  | groupRead l tag g => exact read (execGroupRead_answers l tag g s)
  | groupList l tag => exact .next (s.answer_keeps ..)
  | setupRead l tag k z => exact read (execSetupRead_answers l tag k z s)
  | go l tag e => exact execGo_keeps s l tag e
  | preWaitEnd c => exact execPreWaitEnd_keeps s c
  | fadeAdvance => exact .next s.advanceSlots_keeps
  | fadeCompletion k => exact .next (s.completeSlot_keeps k)
  | followExpiry c => exact .next (s.expireFollow_keeps c)
  | beat => exact execBeat_keeps s
  | standbySet l tag c => exact execStandbySet_keeps s l tag c
  | panic l tag => exact execPanic_keeps s l tag
  | runStatus l tag x => exact read (execRunStatus_answers l tag x s)
  | triggerStatus l tag => exact .next (s.answer_keeps ..)
  | pulseEnd n => exact .next (s.setLine_keeps ..)
  | repeatPhaseEnd n => exact .next (s.setLine_keeps ..)
  | zoneRoute l tag z m => exact execZoneRoute_keeps s l tag z m
  | zoneStatus l tag z n => exact read (execZoneStatus_answers l tag z n s)
  | callOpen l tag k zones v => exact execCallOpen_keeps s l tag k zones v
  | callClose l tag => exact execCallClose_keeps s l tag
  | callTimeout => exact execCallTimeout_keeps s
  | callStatus l tag => exact .next (s.answer_keeps ..)
  | duckRampAdvance => exact .next s.advanceRamps_keeps
  | duckRampEnd z => exact .next (s.onZone_keeps z Zone.endRamp_targeted)
  | audioFrame i0 i1 => exact execAudioFrame_keeps s i0 i1
  | windowEnd => exact .next s.endFullWindow_keeps
  | clockLoss => exact execClockLoss_keeps s
  | clockReturn => exact execClockReturn_keeps s
  | audioRestored => exact execAudioRestored_keeps s
  | alarmPoll l tag z => exact read (execAlarmPoll_answers l tag z s)
  | alarmsAck l tag zones => exact execAlarmsAck_keeps s l tag zones
  | arm l tag mode delay => exact execArm_keeps s l tag mode delay
  | delayExpiry => exact execDelayExpiry_keeps s
  | intervalBegin l tag => exact execIntervalBegin_keeps s l tag
  | intervalEnd l tag => exact execIntervalEnd_keeps s l tag
  | finish l tag => exact execFinish_keeps s l tag
  | recordClear l tag => exact execRecordClear_keeps s l tag
  | recordStatus l tag => exact .next (s.answer_keeps ..)
  | readLog l tag k => exact .next (s.answer_keeps ..)
  | stageBegin l tag g h n => exact execStageBegin_keeps s l tag g h n
  | stageAdd l tag items => exact execStageAdd_keeps s l tag items
  | stageVerify l tag x => exact read (execStageVerify_answers l tag x s)
  | stageCommit l tag k g n e => exact execStageCommit_keeps s l tag k g n e
  | notices l tag => exact .answer_keeps s (s.onLane_keeps l (f := fun x => { x with notices := {} }) fun _ ok => ok)
  | laneStatus l tag x => exact read (execLaneStatus_answers l tag x s)
  | engineReset l tag => exact .fullOnly_keeps s ((s.engineReset_keeps l).trans (State.answer_keeps ..))
  | resetCauses l tag => exact .next (s.answer_keeps ..)
  | causesClear l tag => exact execCausesClear_keeps s l tag
  | identity l tag => exact .next (s.answer_keeps ..)
  | lineReturnedHigh l => exact .next (s.onLane_keeps l fun _ ok => ok.returnHigh)
  | performanceClockMillisecond => exact .next (s.record_keeps fun ok => ok.tickClock)

end

/-! ## Frames and the step -/

/-- What a good frame comes to (R178): an answer or a count of its lane's, or its request on the state with the frame in the slot. -/
theorem exec_goodFrame_cases {l : Lane} {f : Frame} {s t : State} (h : exec (.goodFrame l f) s = .next t) :
    (∃ g, (∀ x : LaneState, x.CountsOk → (g x).CountsOk) ∧ t = s.onLane l g) ∨
      ∃ i, requestFrame i ≠ none ∧ exec i (s.onLane l fun x => { x with assembly := none, slot := some f }) = .next t := by
  have refused : ∀ st, ∃ g : LaneState → LaneState, (∀ x : LaneState, x.CountsOk → (g x).CountsOk) ∧
      (s.onLane l fun x => { x with assembly := none, slot := some f }).reply l f st [] = s.onLane l g := fun st => by
    refine ⟨_, ?_, State.reply_entered l f st s⟩
    exact fun _ ok => ok
  by_cases high : (s.lanes.get l).line = .high
  · cases slot : (s.lanes.get l).slot with
    | some g =>
      rw [exec_goodFrame_dropped f high slot] at h
      cases h
      refine .inl ⟨_, ?_, rfl⟩
      exact fun _ ok => ⟨ok.1, ok.2.1, ok.2.2.1, bump8_le _, ok.2.2.2.2⟩
    | none =>
      rw [exec_goodFrame_entered f high slot] at h
      by_cases known : isRequestCode f.code
      · by_cases permits : rolePermits l f.code
        · cases read : parseRequest l f with
          | none =>
            rw [takeFrame_malformed _ permits read] at h
            cases h
            exact .inl (refused _)
          | some i =>
            rw [takeFrame_handed _ permits read] at h
            exact .inr ⟨i, parseRequest_readsRequest l f i read, h⟩
        · rw [takeFrame_refusedRole _ known (by simpa using permits)] at h
          cases h
          exact .inl (refused _)
      · rw [takeFrame_unknownRequest _ (by simpa using known)] at h
        cases h
        exact .inl (refused _)
  · have stays : exec (.goodFrame l f) s = .next s := by
      change execGoodFrame l f s = .next s
      simp [execGoodFrame, LaneState.receives, high]
    rw [stays] at h
    cases h
    exact .inl ⟨id, fun _ ok => ok, by cases l <;> rfl⟩

/-- Every command keeps what holds at all times. -/
theorem exec_keeps_all (i : Instr) (s : State) : Ends (Keeps true s) (exec i s) := by
  by_cases frame : ∃ l f, i = .goodFrame l f
  · obtain ⟨l, f, rfl⟩ := frame
    intro t h
    rcases exec_goodFrame_cases h with ⟨g, counts, rfl⟩ | ⟨i, framed, taken⟩
    · exact s.onLane_keeps l counts
    · have entered := s.onLane_keeps (unlocked := true) l (f := fun x => { x with assembly := none, slot := some f }) fun _ ok => ok
      exact entered.trans (exec_keeps _ i (by rintro l f rfl; exact framed rfl) t taken).weaken
  · exact fun t h => (exec_keeps s i (fun l f e => frame ⟨l, f, e⟩) t h).weaken

/-- Every step keeps what holds at all times. -/
theorem step_keeps {s t : State} (h : step s = .next t) : Keeps true s t := by
  cases waiting : s.pending with
  | nil =>
    rw [step_nil s waiting] at h
    cases h
    exact s.tick_keeps
  | cons c rest =>
    rw [step_cons s c rest waiting] at h
    have queue : Keeps true s { s with pending := rest } := ⟨fun _ => rfl, id, id, id, id, id, id, id, id⟩
    exact queue.trans (exec_keeps_all c _ t h)

/-- Settles O56. -/
theorem mapAndLevelsStayInRange : Obligations.MapAndLevelsStayInRange := fun _ _ map levels h =>
  ⟨(step_keeps h).map map, (step_keeps h).levels levels⟩

/-- Settles O57. -/
theorem standbyIsOfTheStackAndRunsAreDistinct : Obligations.StandbyIsOfTheStackAndRunsAreDistinct :=
  fun _ _ stack runs h => ⟨(step_keeps h).stack stack, (step_keeps h).runs runs⟩

/-- Settles O58. -/
theorem callsStayOnePerLane : Obligations.CallsStayOnePerLane := fun _ _ calls h => (step_keeps h).calls calls

/-- Settles O59. -/
theorem logAndCountersStayInOrder : Obligations.LogAndCountersStayInOrder := fun _ _ record lanes h =>
  ⟨(step_keeps h).record record, (step_keeps h).lanes lanes⟩

/-- Settles O60. -/
theorem membershipsAndSlotsAgree : Obligations.MembershipsAndSlotsAgree := fun _ _ fades h => (step_keeps h).fades fades

/-! ## The store during a performance (R71, R140) -/

/-- While the store is locked the checks of a commit find a refusal (R165, R166). -/
theorem State.commitRefusal_of_inShow {s : State} (running : s.record.state.inShow = true) (buffer : Option Image)
    (k g n e : Nat) : ∃ x, s.commitRefusal buffer k g n e = some x := by
  unfold State.commitRefusal
  split
  · exact ⟨_, rfl⟩
  · split
    · exact ⟨_, rfl⟩
    · split
      · exact ⟨_, rfl⟩
      · simp

theorem execStageCommit_locked {s : State} (running : s.record.state.inShow = true) (l : Lane) (tag : Byte)
    (k g n e : Nat) : Ends (fun t => t.store = s.store) (exec (.stageCommit l tag k g n e) s) := by
  obtain ⟨x, refused⟩ := State.commitRefusal_of_inShow running (s.buffer l) k g n e
  refine .role (State.answer_store ..) ?_
  rw [refused]
  exact State.answer_store ..

theorem exec_locked {s : State} (running : s.record.state.inShow = true) (i : Instr) (noFrame : ∀ l f, i ≠ .goodFrame l f)
    (noPower : i ≠ .powerOn) (noPin : i ≠ .resetPin) : Ends (fun t => t.store = s.store) (exec i s) := by
  by_cases changes : changesStore i = false
  · exact fun t h => (exec_keeps s i noFrame t h).store changes
  · cases i
    case stageCommit => exact execStageCommit_locked running _ _ _ _ _ _
    case goodFrame => exact absurd rfl (noFrame _ _)
    case powerOn => exact absurd rfl noPower
    case resetPin => exact absurd rfl noPin
    all_goals exact absurd rfl changes

theorem exec_goodFrame_locked {s : State} (running : s.record.state.inShow = true) (l : Lane) (f : Frame) :
    Ends (fun t => t.store = s.store) (exec (.goodFrame l f) s) := by
  intro t h
  rcases exec_goodFrame_cases h with ⟨_, _, rfl⟩ | ⟨i, framed, taken⟩
  · rfl
  · refine exec_locked (s := s.onLane l _) running i ?_ ?_ ?_ t taken
    · rintro l f rfl
      exact framed rfl
    · rintro rfl
      exact framed rfl
    · rintro rfl
      exact framed rfl

theorem inShow_of_running {st : PerfState} (h : st = .running ∨ st = .interval) : st.inShow = true := by
  rcases h with rfl | rfl <;> rfl

/-- Settles O32: the commands that may change the store are power-on and the reset pin, which are excepted, and a commit, which
is refused. -/
theorem storeIsLockedDuringAPerformance : Obligations.StoreIsLockedDuringAPerformance := by
  intro s t state excepted h
  have running := inShow_of_running state
  cases waiting : s.pending with
  | nil =>
    rw [step_nil s waiting] at h
    cases h
    exact s.tick_store
  | cons c rest =>
    rw [step_cons s c rest waiting] at h
    obtain ⟨noPower, noPin⟩ := excepted c rest waiting
    by_cases frame : ∃ l f, c = .goodFrame l f
    · obtain ⟨l, f, rfl⟩ := frame
      exact exec_goodFrame_locked (s := { s with pending := rest }) running l f t h
    · exact exec_locked (s := { s with pending := rest }) running c (fun l f e => frame ⟨l, f, e⟩) noPower noPin t h

end Sys2Proof.Machine
end

section
/-! Single commands: ZONE ROUTE, the refusals of GO, PANIC, the audio clock's faults, arming and starting, the intervals and the
end of a performance, DUCK_RAMP_ADVANCE and DUCK_RAMP_END. -/

namespace Sys2Proof.Machine

/-! ## ZONE ROUTE (R106) -/

section
variable {l : Lane} (full : l ≠ .p) (tag : Byte) {z m : Nat} {s : State}
include full

theorem exec_zoneRoute_outOfRange (out : 32 ≤ z ∨ 24 ≤ m ∧ m ≠ 255) :
    exec (.zoneRoute l tag z m) s = .next (s.answer (.zoneRoute l tag z m) .outOfRange []) := by
  rw [exec, execZoneRoute, fullOnly_full l _ _ _ full]
  by_cases zone : Config.zones ≤ z
  · rw [if_pos zone]
  · obtain ⟨high, named⟩ : 24 ≤ m ∧ m ≠ 255 := out.resolve_left zone
    have none : routeOfCode m = none := by
      rw [routeOfCode, if_neg (Nat.not_lt.mpr high), if_neg named]
    rw [if_neg zone, none]

theorem exec_zoneRoute_served (zone : z < 32) (mix : m < 24 ∨ m = 255) :
    exec (.zoneRoute l tag z m) s =
      .next ((s.setRoute z (if m = 255 then none else some m)).answer (.zoneRoute l tag z m) .ok
        (be 1 z ++ be 1 ((s.zone z).route.getD 255) ++ be 1 m)) := by
  rw [exec, execZoneRoute, fullOnly_full l _ _ _ full, if_neg (Nat.not_le.mpr zone)]
  rcases mix with mix | rfl
  · have other : m ≠ 255 := by omega
    rw [routeOfCode, if_pos mix, if_neg other]
    rfl
  · rfl

end

/-- Settles O45, one case of ZONE ROUTE for each clause. -/
theorem zoneRouteSetsItsRoute : Obligations.ZoneRouteSetsItsRoute := by
  intro l tag z m s
  refine ⟨?role, fun full out => ?outOfRange, fun full zone mix => ?served⟩
  case role =>
    rintro rfl
    exact .of_answer rfl rfl
  case outOfRange => exact .of_answer rfl (exec_zoneRoute_outOfRange full tag out)
  case served =>
    refine ⟨_, exec_zoneRoute_served full tag zone mix, fun k => ?_, .of_answer rfl (.refl s) _ _, State.answer_frame ..⟩
    refine (s.zone_onZone z k _).trans ?_
    by_cases same : k = z
    · rw [if_pos ⟨same, same ▸ zone⟩, if_pos same]
    · rw [if_neg fun h => same h.1, if_neg same]

/-! ## The refusals of GO (R84) -/

section
variable (l : Lane) (tag : Byte) {s : State} {e : Option Nat}

theorem expectedOutOfRange_eq_false (inRange : ∀ c, e = some c → 1 ≤ c ∧ c ≤ 9999999) : expectedOutOfRange e = false := by
  cases e with
  | none => rfl
  | some c =>
    obtain ⟨low, high⟩ := inRange c rfl
    have zero : c ≠ 0 := by omega
    simp [expectedOutOfRange, Config.maxCue, zero, high]

theorem exec_go_outOfRange {c : Nat} (out : c = 0 ∨ 9999999 < c) :
    exec (.go l tag (some c)) s = .next (s.answer (.go l tag (some c)) .outOfRange []) := by
  have refused : expectedOutOfRange (some c) = true := by
    rcases out with rfl | high
    · rfl
    · simp [expectedOutOfRange, Config.maxCue, high]
  rw [exec, execGo, if_pos refused]

variable (inRange : ∀ c, e = some c → 1 ≤ c ∧ c ≤ 9999999)
include inRange

theorem exec_go_noStandby (ended : s.standbyCue = none) :
    exec (.go l tag e) s = .next (s.answer (.go l tag e) .noStandby []) := by
  simp only [exec, execGo, expectedOutOfRange_eq_false inRange, ended, Bool.false_eq_true, if_false]

variable {rec : Cue} (standby : s.standbyCue = some rec)
include standby

theorem exec_go_stale (stale : s.isStale e = true) :
    exec (.go l tag e) s =
      .next ((s.report (.lane l) e none (.staleGo s.runner.standby)).answer (.go l tag e) .stale
        (cueBytes s.runner.standby)) := by
  simp only [exec, execGo, expectedOutOfRange_eq_false inRange, standby, stale, Bool.false_eq_true, if_false, if_true]

theorem exec_go_refusedRole (current : s.isStale e = false) (may : mayGo l rec = false) :
    exec (.go l tag e) s = .next (s.answer (.go l tag e) .refusedRole (cueBytes s.runner.standby)) := by
  simp only [exec, execGo, expectedOutOfRange_eq_false inRange, standby, current, may, Bool.false_eq_true, if_false]

theorem exec_go_taken (current : s.isStale e = false) (may : mayGo l rec = true) :
    exec (.go l tag e) s =
      .next ((s.takeGo rec (.lane l)).answer (.go l tag e) .ok
        (be 3 rec.number ++ cueBytes (s.store.nextAfter rec.number) ++ [flag (s.goStarts rec)])) := by
  simp only [exec, execGo, expectedOutOfRange_eq_false inRange, standby, current, may, Bool.false_eq_true, if_false, if_true]

end

theorem State.standbyCue_of_standby {s : State} {x : Nat} (at_ : s.runner.standby = some x) :
    s.standbyCue = s.store.cue? x := by rw [State.standbyCue, at_]; rfl

theorem State.isStale_eq_false {s : State} {e : Option Nat} {x : Nat} (at_ : s.runner.standby = some x)
    (current : e = none ∨ e = some x) : s.isStale e = false := by
  rcases current with rfl | rfl
  · rfl
  · simp [State.isStale, at_]

theorem requestFrame_go (l : Lane) (tag : Byte) (e : Option Nat) :
    requestFrame (.go l tag e) = some (l, ⟨tag, 0x30, (e.map (be 3)).getD []⟩) := by
  cases e with
  | none => rfl
  | some c => rfl

/-- Settles O34, one case of GO for each check that fails. -/
theorem goIsRefusedByItsFirstFailingCheck : Obligations.GoIsRefusedByItsFirstFailingCheck := by
  intro l tag s
  refine ⟨fun c out => .of_answer rfl (exec_go_outOfRange l tag out), fun e inRange => ⟨fun ended => ?_, fun x rec at_ held => ?_⟩⟩
  · refine .of_answer (requestFrame_go l tag e) (exec_go_noStandby l tag inRange ?_)
    rw [State.standbyCue, ended]
    rfl
  · have standby : s.standbyCue = some rec := (State.standbyCue_of_standby at_).trans held
    refine ⟨fun c named other => ?stale, fun current prompt callable => ?role⟩
    case stale =>
      subst named
      have stale : s.isStale (some c) = true := by simp [State.isStale, at_, Ne.symm other]
      refine ⟨_, exec_go_stale l tag inRange standby stale, ?_, ?_, State.answer_frame ..⟩
      · rw [at_]
        rfl
      · rw [at_]
        exact .of_answer rfl (Noticed.of_lanes (.refl s) rfl) _ _
    case role =>
      subst prompt
      have refused := exec_go_refusedRole .p tag inRange standby (State.isStale_eq_false at_ current) callable
      rw [at_] at refused
      exact .of_answer (requestFrame_go .p tag e) refused

/-! ## PANIC (R98) -/

/-- Settles O41. -/
theorem panicStopsAllCueMotion : Obligations.PanicStopsAllCueMotion := by
  intro l tag s
  refine ⟨_, rfl, rfl, fun n => ?_, s.slot_freezeFades, s.point_freezeFades, rfl, ?_, State.answer_frame ..⟩
  · by_cases h : n < Config.lines
    · exact Table.getD_replicate _ _ _ _ h
    · exact Table.getD_of_le _ _ _ (Nat.le_of_not_lt h)
  · exact .of_answer rfl (((Noticed.refl s).of_lanes rfl |>.noticeAll .standby).noticeAll .run) _ _

/-! ## The audio clock (R34 to R36) -/

/-- Settles O21. -/
theorem audioClockFaultBeginsAndClears : Obligations.AudioClockFaultBeginsAndClears := by
  intro s
  refine ⟨fun good => ?loss, fun recovering => ?relapse, fun absent => ?back, fun recovering => ?restored⟩
  case loss =>
    have lost : exec .clockLoss s = .next s.faultOnset := by rw [exec, execClockLoss, good]
    exact ⟨_, lost, rfl, rfl, rfl, ((Noticed.refl s).of_lanes rfl).noticeAll .alarm, rfl⟩
  case relapse => rw [exec, execClockLoss, recovering]; rfl
  case back => rw [exec, execClockReturn, absent]
  case restored =>
    have back : exec .audioRestored s = .next s.restoreClock := by rw [exec, execAudioRestored, recovering]
    exact ⟨_, back, rfl, rfl, ((Noticed.refl s).of_lanes rfl).noticeAll .alarm, rfl⟩

end Sys2Proof.Machine
end

section
/-! The performance record's commands (8.2 to 8.4): arming and starting, the intervals, finishing and clearing. -/

namespace Sys2Proof.Machine

/-! ## ARM and DELAY_EXPIRY (R142 to R145) -/

section
variable (l : Lane) (tag : Byte) {mode : Nat} (delay : Nat) {s : State}

theorem exec_armRequest_malformed (other : mode ≠ 1 ∧ mode ≠ 2) :
    exec (.arm l tag mode delay) s = .next (s.answer (.arm l tag mode delay) .malformed []) := by
  simp [exec, execArm, other]

/-- The record armed with a start mode (R142). -/
def State.armed (m : StartMode) (delay : Nat) (s : State) : State :=
  State.noticeAll .performance { s with record := { s.record with
    state := .armed, startMode := some m, logMode := some s.store.showSetup.logMode, delayRemaining := delay } }

theorem exec_armRequest_curtain (clear : s.record.state = .clear) :
    exec (.arm l tag 1 delay) s = .next ((s.armed .curtain 0).answer (.arm l tag 1 delay) .ok
      (be 1 PerfState.armed.code ++ startModeBytes (some .curtain) ++ be 1 s.store.showSetup.logMode.code)) := by
  rw [exec, execArm]
  simp only []
  rw [if_neg (by simp), if_neg (by simp [clear]), if_neg (by decide), if_neg (by decide : ¬ (1 = 2))]
  rfl

theorem exec_armRequest_outOfRange (long : 3600000 < delay) :
    exec (.arm l tag 2 delay) s = .next (s.answer (.arm l tag 2 delay) .outOfRange []) := by
  rw [exec, execArm]
  simp only []
  rw [if_pos (by simpa using long)]

theorem exec_armRequest_notPermitted (taken : mode = 1 ∨ mode = 2 ∧ delay ≤ 3600000) (busy : s.record.state ≠ .clear) :
    exec (.arm l tag mode delay) s = .next (s.answer (.arm l tag mode delay) .notPermitted []) := by
  have refused : (s.record.state != .clear) = true := by simpa using busy
  rcases taken with rfl | ⟨rfl, short⟩
  · rw [exec, execArm]
    simp only []
    rw [if_neg (by simp), if_pos refused]
  · rw [exec, execArm]
    simp only []
    rw [if_neg (by simpa using short), if_pos refused]

theorem exec_armRequest_delay (clear : s.record.state = .clear) (short : delay ≤ 3600000) (some_ : 1 ≤ delay) :
    exec (.arm l tag 2 delay) s = .next ((s.armed (.delay delay) delay).answer (.arm l tag 2 delay) .ok
      (be 1 PerfState.armed.code ++ startModeBytes (some (.delay delay)) ++ be 1 s.store.showSetup.logMode.code)) := by
  have timed : StartMode.delay delay ≠ .delay 0 := by
    rintro ⟨⟩
    cases some_
  rw [exec, execArm]
  simp only []
  rw [if_neg (by simpa using short), if_neg (by simp [clear]), if_neg timed, if_pos trivial]
  rfl

theorem exec_armRequest_now (clear : s.record.state = .clear) :
    exec (.arm l tag 2 0) s = .next (((s.armed (.delay 0) 0).startPerformance (.lane l) none).answer (.arm l tag 2 0) .ok
      (be 1 PerfState.running.code ++ startModeBytes (some (.delay 0)) ++ be 1 s.store.showSetup.logMode.code)) := by
  have state : ((s.armed (.delay 0) 0).startPerformance (.lane l) none).record.state = .running := Record.hand_state ..
  rw [exec, execArm, ← state]
  simp only []
  rw [if_neg (by decide), if_neg (by simp [clear]), if_pos trivial, if_pos trivial]
  rfl

end

theorem Noticed.armed (s : State) (m : StartMode) (delay : Nat) : Noticed s (s.armed m delay) [.performance] :=
  ((Noticed.refl s).of_lanes rfl).noticeAll .performance

/-- PERFORMANCE given once more to lanes that have it changes none of them. -/
theorem Noticed.startPerformance_again {s t : State} (h : Noticed s t [.performance]) (lane : LogLane) (cue : Option Nat) :
    Noticed s (t.startPerformance lane cue) [.performance] := by
  intro m
  have noticed : Noticed s (t.startPerformance lane cue) [.performance, .performance] :=
    (h.of_lanes rfl).noticeAll .performance
  rw [noticed m]
  exact LaneState.notify_notify_self ..

theorem exec_delayExpiry_starts {s : State} {d : Nat} (armed : s.record.state = .armed) (mode : s.record.startMode = some (.delay d)) :
    exec .delayExpiry s = .next (s.startPerformance .engine none) := by
  have awaits : s.record.awaitsDelay = true := by simp [Record.awaitsDelay, armed, mode]
  rw [exec, execDelayExpiry, if_pos awaits]

theorem State.startPerformance_record {s : State} {m : StartMode} (mode : s.record.startMode = some m) (lane : LogLane)
    (cue : Option Nat) :
    (s.startPerformance lane cue).record =
      { s.record with state := .running, clock := 0, delayRemaining := 0 }.hand lane cue none (.performanceStart m) := by
  unfold State.startPerformance
  rw [mode]
  rfl

/-- Settles O52, one case of ARM for each clause. -/
theorem performanceArmsAndStarts : Obligations.PerformanceArmsAndStarts := by
  intro l tag mode delay s
  refine ⟨fun not1 not2 => .of_answer rfl (exec_armRequest_malformed l tag delay ⟨not1, not2⟩), ?_, fun taken =>
    ⟨fun busy => .of_answer rfl (exec_armRequest_notPermitted l tag delay taken busy), fun clear waits => ?_, ?_⟩, fun d armed mode => ?_⟩
  · rintro rfl long
    exact .of_answer rfl (exec_armRequest_outOfRange l tag delay long)
  · rcases taken with rfl | ⟨rfl, short⟩
    · exact ⟨_, exec_armRequest_curtain l tag delay clear, rfl, .of_answer rfl (.armed s _ _) _ _⟩
    · have some_ : 1 ≤ delay := waits.resolve_left (by decide)
      exact ⟨_, exec_armRequest_delay l tag delay clear short some_, rfl, .of_answer rfl (.armed s _ _) _ _⟩
  · rintro clear rfl rfl
    exact ⟨_, exec_armRequest_now l tag clear, rfl, .of_answer rfl ((Noticed.armed s _ _).startPerformance_again _ _) _ _,
      State.answer_frame ..⟩
  · exact ⟨_, exec_delayExpiry_starts armed mode, State.startPerformance_record mode _ _,
      ((Noticed.refl s).of_lanes rfl).noticeAll .performance, rfl⟩

/-! ## Intervals (R140, R147, R148) -/

theorem closeIntervals_of_closed {xs : List Interval} (closed : ∀ x ∈ xs, x.endTime.isSome) (time : Nat) :
    closeIntervals time xs = xs := by
  refine (List.map_congr_left fun x hx => ?_).trans (List.map_id _)
  rw [if_neg (by simpa [Option.isSome_iff_ne_none] using closed x hx)]
  rfl

theorem closeIntervals_append (time : Nat) (xs ys : List Interval) :
    closeIntervals time (xs ++ ys) = closeIntervals time xs ++ closeIntervals time ys := List.map_append

theorem closeIntervals_open {xs : List Interval} (closed : ∀ x ∈ xs, x.endTime.isSome) (time n b : Nat) :
    closeIntervals time (xs ++ [⟨n, b, none⟩]) = xs ++ [⟨n, b, some time⟩] := by
  rw [closeIntervals_append, closeIntervals_of_closed closed]
  rfl

theorem length_closeIntervals (time : Nat) (xs : List Interval) : (closeIntervals time xs).length = xs.length :=
  List.length_map _

theorem Record.openInterval_of_open {r : Record} {xs : List Interval} {n b : Nat} (h : r.intervals = xs ++ [⟨n, b, none⟩]) :
    r.openInterval = some ⟨n, b, none⟩ := by
  simp [Record.openInterval, h]

theorem Record.openInterval_of_closed {r : Record} (closed : ∀ x ∈ r.intervals, x.endTime.isSome) : r.openInterval = none := by
  unfold Record.openInterval
  split
  · next x last =>
    have ended := closed x (List.mem_of_getLast? last)
    rw [if_neg (by simpa [Option.isSome_iff_ne_none] using ended)]
  · rfl

section
variable (l : Lane) (tag : Byte) {s : State}

theorem exec_intervalBegin_notPermitted (state : s.record.state ≠ .running) :
    exec (.intervalBegin l tag) s = .next (s.answer (.intervalBegin l tag) .notPermitted []) := by
  rw [exec, execIntervalBegin, if_pos (by simpa using state)]

theorem exec_intervalBegin_full (state : s.record.state = .running) (many : 4 ≤ s.record.intervals.length) :
    exec (.intervalBegin l tag) s = .next (s.answer (.intervalBegin l tag) .full []) := by
  rw [exec, execIntervalBegin, if_neg (by simp [state]), if_pos many]

/-- INTERVAL BEGIN where it is taken: the record, its report and the notice (R147). -/
def State.beginInterval (l : Lane) (s : State) : State :=
  State.noticeAll .performance (State.report (.lane l) none none (.intervalBegin (s.record.intervals.length + 1))
    { s with record := { s.record with
      intervals := s.record.intervals ++ [Interval.mk (s.record.intervals.length + 1) s.record.clock none],
      state := .interval } })

theorem exec_intervalBegin_taken (state : s.record.state = .running) (few : s.record.intervals.length < 4) :
    exec (.intervalBegin l tag) s = .next ((s.beginInterval l).answer (.intervalBegin l tag) .ok
      (be 1 (s.record.intervals.length + 1) ++ be 4 s.record.clock)) := by
  rw [exec, execIntervalBegin, if_neg (by simp [state]), if_neg (Nat.not_le.mpr few)]
  rfl

theorem exec_intervalEnd_notPermitted (state : s.record.state ≠ .interval) :
    exec (.intervalEnd l tag) s = .next (s.answer (.intervalEnd l tag) .notPermitted []) := by
  rw [exec, execIntervalEnd, if_pos (by simpa using state)]

/-- INTERVAL END of interval `n`, begun at `b`, where it is taken (R148). -/
def State.endInterval (l : Lane) (n b : Nat) (s : State) : State :=
  State.noticeAll .performance (State.report (.lane l) none none (.intervalEnd n (s.record.clock - b))
    { s with record := { s.record with
      intervals := closeIntervals s.record.clock s.record.intervals, state := .running } })

theorem exec_intervalEnd_taken (state : s.record.state = .interval) {n b : Nat}
    (opened : s.record.openInterval = some ⟨n, b, none⟩) :
    exec (.intervalEnd l tag) s = .next ((s.endInterval l n b).answer (.intervalEnd l tag) .ok
      (be 1 n ++ be 4 b ++ be 4 s.record.clock)) := by
  rw [exec, execIntervalEnd, if_neg (by simp [state]), opened]
  rfl

/-! ## FINISH and RECORD CLEAR (R149 to R151) -/

theorem State.endPerformance_record : (s.endPerformance l).record =
    { s.record.hand (.lane l) none none (.performanceEnd s.record.intervals.length s.record.openInterval.isSome) with
      state := .finished, intervals := closeIntervals s.record.clock s.record.intervals } :=
  congrArg (fun x => { s.record.hand .. with state := PerfState.finished, intervals := closeIntervals s.record.clock x })
    (Record.hand_intervals ..)

theorem exec_finish_ends (state : s.record.state.inShow = true) :
    exec (.finish l tag) s = .next ((s.endPerformance l).answer (.finish l tag) .ok
      (be 4 s.record.clock ++ be 1 s.record.intervals.length ++ [flag s.record.neverStarted])) := by
  have ended : finishBytes (s.endPerformance l).record =
      be 4 s.record.clock ++ be 1 s.record.intervals.length ++ [flag s.record.neverStarted] := by
    have length : (s.endPerformance l).record.intervals.length = s.record.intervals.length := by
      change (closeIntervals s.record.clock (s.report ..).record.intervals).length = _
      rw [length_closeIntervals]
      exact congrArg List.length (Record.hand_intervals ..)
    have clock : (s.endPerformance l).record.clock = s.record.clock := Record.hand_clock ..
    have started : (s.endPerformance l).record.neverStarted = s.record.neverStarted := Record.hand_neverStarted ..
    rw [finishBytes, length, clock, started]
  rw [exec, execFinish, ← ended]
  cases held : s.record.state
  case running => rfl
  case interval => rfl
  all_goals
    rw [held] at state
    cases state

theorem exec_finish_abandons (state : s.record.state = .armed) :
    exec (.finish l tag) s = .next (s.abandonPerformance.answer (.finish l tag) .ok
      (be 4 s.record.clock ++ be 1 s.record.intervals.length ++ [1])) := by
  rw [exec, execFinish, state]
  rfl

theorem exec_finish_notPermitted (state : s.record.state = .clear ∨ s.record.state = .finished) :
    exec (.finish l tag) s = .next (s.answer (.finish l tag) .notPermitted []) := by
  rw [exec, execFinish]
  rcases state with h | h
  · rw [h]
  · rw [h]

theorem exec_recordClear_notPermitted (notFinished : s.record.state ≠ .finished) (notClear : s.record.state ≠ .clear) :
    exec (.recordClear l tag) s = .next (s.answer (.recordClear l tag) .notPermitted []) := by
  rw [exec, execRecordClear]
  cases held : s.record.state
  case finished => exact absurd held notFinished
  case clear => exact absurd held notClear
  all_goals rfl

theorem Noticed.performance {t : State} (lanes : t.lanes = (s.noticeAll .performance).lanes) : Noticed s t [.performance] :=
  ((Noticed.refl s).noticeAll .performance).of_lanes lanes

end

theorem Record.tickClock_eq (r : Record) : r.tickClock = { r with
    clock := if r.state = .running ∨ r.state = .interval then min 99999999 (r.clock + 1) else r.clock } := by
  obtain ⟨state⟩ := r
  cases state <;> simp [Record.tickClock, PerfState.inShow, bump, Config.maxClock]

/-- Settles O53, one case of each request for each clause. -/
theorem performancePausesFinishesAndClears : Obligations.PerformancePausesFinishesAndClears := by
  intro l tag s
  refine ⟨fun state => .of_answer rfl (exec_intervalBegin_notPermitted l tag state),
    fun state many => .of_answer rfl (exec_intervalBegin_full l tag state many), fun state few => ?begin,
    fun state => .of_answer rfl (exec_intervalEnd_notPermitted l tag state), fun closed n b state held ended => ⟨?end_, ?finish⟩,
    fun state ended => ?running, fun state => ?armed, fun state => .of_answer rfl (exec_finish_notPermitted l tag state),
    fun state => ?cleared, fun state => ?clear,
    fun notFinished notClear => .of_answer rfl (exec_recordClear_notPermitted l tag notFinished notClear), ?clock⟩
  case begin =>
    exact ⟨_, exec_intervalBegin_taken l tag state few, rfl, .of_answer rfl (.performance rfl) _ _, State.answer_frame ..⟩
  case end_ =>
    refine ⟨_, exec_intervalEnd_taken l tag state (Record.openInterval_of_open held), ?_, .of_answer rfl (.performance rfl) _ _,
      State.answer_frame ..⟩
    rw [← closeIntervals_open ended, ← held]
    rfl
  case finish =>
    refine ⟨_, exec_finish_ends l tag (inShow_of_running (.inr state)), ?_, .of_answer rfl (.performance rfl) _ _,
      State.answer_frame ..⟩
    rw [← closeIntervals_open ended, ← held, State.answer_record, State.endPerformance_record, Record.openInterval_of_open held]
    rfl
  case running =>
    refine ⟨_, exec_finish_ends l tag (inShow_of_running (.inl state)), ?_, .of_answer rfl (.performance rfl) _ _,
      State.answer_frame ..⟩
    rw [State.answer_record, State.endPerformance_record, Record.openInterval_of_closed ended, closeIntervals_of_closed ended]
    exact congrArg (fun x => { s.record.hand .. with state := PerfState.finished, intervals := x })
      (Record.hand_intervals ..).symm
  case armed =>
    exact ⟨_, exec_finish_abandons l tag state, .of_answer rfl (.performance rfl) _ _, rfl⟩
  case cleared =>
    have done : exec (.recordClear l tag) s =
        .next ((State.noticeAll .performance { s with record := {} }).answer (.recordClear l tag) .ok [1]) := by
      rw [exec, execRecordClear, state]
      rfl
    exact ⟨_, done, .of_answer rfl (.performance rfl) _ _, rfl⟩
  case clear =>
    refine .of_answer rfl ?_
    rw [exec, execRecordClear, state]
    rfl
  case clock => rw [← Record.tickClock_eq]; rfl

end Sys2Proof.Machine
end

section
/-! Level requests (1.4): what a target names, the answer of a served request, and the three trim requests. -/

namespace Sys2Proof.Machine

/-! ## Targets (R8) -/

theorem Store.resolveRequest_of_names {st : Store} {all : Bool} {g : Target} {ps : List Nat} (h : Names st all g ps) :
    st.resolveRequest all g = .points ps := by
  unfold Store.resolveRequest
  rcases h with ⟨kind, below, rfl⟩ | ⟨kind, r, found, rfl⟩ | ⟨kind, accepts, every⟩
  · simp only [kind, below, if_true]
  · simp only [kind, found]
  · rw [kind, accepts, every]
    exact if_pos rfl

theorem Store.resolveRequest_of_namesNothing {st : Store} {all : Bool} {g : Target} (h : NamesNothing st g) :
    st.resolveRequest all g = .refused .notFound := by
  unfold Store.resolveRequest
  rcases h with ⟨kind, above⟩ | ⟨kind, absent⟩
  · simp only [kind, Nat.not_lt.mpr above, if_false]
  · simp only [kind, absent]

theorem Store.resolveRequest_of_other {st : Store} {all : Bool} {g : Target} (not1 : g.kind ≠ 1) (not2 : g.kind ≠ 2)
    (not3 : all = false ∨ g.kind ≠ 3) : st.resolveRequest all g = .refused .malformed := by
  unfold Store.resolveRequest
  split
  · next kind => exact absurd kind not1
  · next kind => exact absurd kind not2
  · next kind =>
    rw [not3.resolve_right (not_not_intro kind)]
    rfl
  · rfl

section
variable {s : State} {i : Instr} {all : Bool} {g : Target} {clamped : List Nat → State → Bool} {change : Nat → State → State}

theorem levelRequest_refused {st : Status} (h : s.store.resolveRequest all g = .refused st) :
    levelRequest i all g clamped change s = s.answer i st [] := by
  rw [levelRequest, h]

theorem levelReply_eq (ps : List Nat) (flagged : Bool) :
    levelReply i g ps flagged s = s.answer i .ok (levelAnswer s g flagged ps.length) := by
  unfold levelReply levelAnswer
  by_cases point : g.kind = 1
  · rw [if_pos point, if_pos point]
    simp only [List.cons_append, List.append_assoc]
    rfl
  · rw [if_neg point, if_neg point, List.append_nil]

theorem levelRequest_served {ps : List Nat} (h : Names s.store all g ps) :
    levelRequest i all g clamped change s =
      (ps.foldl (fun s p => change p s) s).answer i .ok
        (levelAnswer (ps.foldl (fun s p => change p s) s) g (clamped ps s) ps.length) := by
  rw [levelRequest, Store.resolveRequest_of_names h]
  exact levelReply_eq ps _

end

/-- The reply of a level request reads the points alone. -/
theorem levelAnswer_congr {s t : State} (points : t.points = s.points) (g : Target) (flagged : Bool) (n : Nat) :
    levelAnswer t g flagged n = levelAnswer s g flagged n := by
  have point : t.point g.number = s.point g.number := by rw [State.point, points]; rfl
  rw [levelAnswer, levelAnswer, point]

/-- Points changed in order by a function that changes none twice. -/
theorem State.point_onPoints_of_idem (ps : List Nat) {f : Point → Point} (idem : ∀ q, f (f q) = f q) (s : State) (q : Nat)
    (below : q < Config.points) : (s.onPoints ps f).point q = if q ∈ ps then f (s.point q) else s.point q := by
  induction ps generalizing s with
  | nil => rfl
  | cons p ps ih =>
    change ((s.onPoint p f).onPoints ps f).point q = _
    rw [ih, State.point_onPoint]
    by_cases head : q = p
    · simp only [head, if_true, List.mem_cons, true_or, head ▸ below, and_self, idem, ite_self]
    · simp only [head, false_and, if_false, List.mem_cons, false_or]

theorem State.onPoints_frame (ps : List Nat) (f : Point → Point) (s : State) :
    s.onPoints ps f = { s with points := (s.onPoints ps f).points } := by
  induction ps generalizing s with
  | nil => rfl
  | cons p ps ih => exact ih (s.onPoint p f)

/-! ## The trim requests (R14 to R16) -/

section
variable {l : Lane} (full : l ≠ .p) (tag : Byte) {g : Target} {s : State}
include full

theorem exec_trimNudge (v : Int) : exec (.trimNudge l tag g v) s =
    .next (levelRequest (.trimNudge l tag g v) false g (nudgeClamped v) (State.nudgePoint v) s) := fullOnly_full l _ _ _ full

theorem exec_trimSet (v : Int) : exec (.trimSet l tag g v) s =
    .next (levelRequest (.trimSet l tag g v) false g (fun _ _ => v != clampTrim v) (fun p s => s.setTrim p v) s) :=
  fullOnly_full l _ _ _ full

theorem exec_trimClear : exec (.trimClear l tag g) s =
    .next (levelRequest (.trimClear l tag g) true g (fun _ _ => false) (fun p s => s.setTrim p 0) s) :=
  fullOnly_full l _ _ _ full

end

theorem ne_clamp_iff {lo hi : Int} (order : lo ≤ hi) (x : Int) : x ≠ max lo (min hi x) ↔ x < lo ∨ hi < x := by omega

theorem bne_clampTrim (v : Int) : (v != clampTrim v) = decide (v < -600 ∨ 120 < v) := by
  rw [Bool.eq_iff_iff, bne_iff_ne, decide_eq_true_eq]
  exact ne_clamp_iff (by decide) v

theorem nudgeClamped_eq (v : Int) (ps : List Nat) (s : State) :
    nudgeClamped v ps s = decide (v < -1200 ∨ 1200 < v ∨
      ∃ p ∈ ps, (s.point p).trim + max (-1200) (min 1200 v) < -600 ∨ 120 < (s.point p).trim + max (-1200) (min 1200 v)) := by
  have delta : (v ≠ clampDelta v) ↔ v < -1200 ∨ 1200 < v := ne_clamp_iff (by decide) v
  have sum : ∀ x : Int, x ≠ clampTrim x ↔ x < -600 ∨ 120 < x := ne_clamp_iff (by decide)
  rw [Bool.eq_iff_iff, decide_eq_true_eq, ← or_assoc, ← delta]
  simp only [nudgeClamped, Bool.or_eq_true, bne_iff_ne, List.any_eq_true, sum]
  rfl

/-- A level request that changes each named point by one function: the points, the answer, and nothing else. -/
theorem levelRequest_onPoints {s : State} {i : Instr} {l : Lane} {f : Frame} {all : Bool} {g : Target} {ps : List Nat}
    (framed : requestFrame i = some (l, f)) (named : Names s.store all g ps) (flagged : List Nat → State → Bool)
    (change : Point → Point) :
    let t := levelRequest i all g flagged (fun p s => s.onPoint p change) s
    t.points = (s.onPoints ps change).points ∧ Answered s t i .ok (levelAnswer t g (flagged ps s) ps.length) [] ∧
      t = { s with lanes := t.lanes, points := t.points } := by
  intro t
  have served : t = (s.onPoints ps change).answer i .ok (levelAnswer (s.onPoints ps change) g (flagged ps s) ps.length) :=
    levelRequest_served named
  have points : t.points = (s.onPoints ps change).points := by rw [served, State.answer_points]
  refine ⟨points, ?_, ?_⟩
  · rw [levelAnswer_congr points, served]
    exact .of_answer framed ((Noticed.refl s).of_lanes (State.onPoints_lanes ..)) _ _
  · rw [served, State.answer_frame, State.onPoints_frame]

/-- Settles O14: each request is one function of the named points. -/
theorem trimRequestsWriteTrimsAlone : Obligations.TrimRequestsWriteTrimsAlone := by
  intro l tag g v s full
  refine ⟨fun nothing => ?_, fun not1 not2 => ?_, fun ps named distinct => ⟨?nudge, ?set⟩, fun ps named => ?clear⟩
  · have absent := fun all => Store.resolveRequest_of_namesNothing (all := all) nothing
    exact ⟨.of_answer rfl ((exec_trimNudge full tag v).trans (congrArg _ (levelRequest_refused (absent false)))),
      .of_answer rfl ((exec_trimSet full tag v).trans (congrArg _ (levelRequest_refused (absent false)))),
      .of_answer rfl ((exec_trimClear full tag).trans (congrArg _ (levelRequest_refused (absent true))))⟩
  · have other := fun all => Store.resolveRequest_of_other (st := s.store) (all := all) not1 not2
    exact ⟨.of_answer rfl ((exec_trimNudge full tag v).trans (congrArg _ (levelRequest_refused (other _ (.inl rfl))))),
      .of_answer rfl ((exec_trimSet full tag v).trans (congrArg _ (levelRequest_refused (other _ (.inl rfl))))),
      fun not3 => .of_answer rfl ((exec_trimClear full tag).trans (congrArg _ (levelRequest_refused (other _ (.inr not3)))))⟩
  case nudge =>
    obtain ⟨points, answered, frame⟩ := levelRequest_onPoints (i := .trimNudge l tag g v) rfl named (nudgeClamped v)
      fun q => { q with trim := clampTrim (q.trim + clampDelta v) }
    refine ⟨_, exec_trimNudge full tag v, fun p below => ?_, ?_, frame⟩
    · refine (congrArg (fun t => t.getD p {}) points).trans ((State.point_onPoints ps _ s p distinct).trans ?_)
      simp only [below, and_true]
      rfl
    · rw [← nudgeClamped_eq]
      exact answered
  case set =>
    obtain ⟨points, answered, frame⟩ := levelRequest_onPoints (i := .trimSet l tag g v) rfl named (fun _ _ => v != clampTrim v)
      fun q => { q with trim := clampTrim v }
    refine ⟨_, exec_trimSet full tag v, fun p below => ?_, ?_, frame⟩
    · refine (congrArg (fun t => t.getD p {}) points).trans (State.point_onPoints_of_idem ps ?_ s p below)
      exact fun _ => rfl
    · rw [← bne_clampTrim]
      exact answered
  case clear =>
    obtain ⟨points, answered, frame⟩ := levelRequest_onPoints (i := .trimClear l tag g) rfl named (fun _ _ => false)
      fun q => { q with trim := clampTrim 0 }
    refine ⟨_, exec_trimClear full tag, fun p below => ?_, answered, frame⟩
    refine (congrArg (fun t => t.getD p {}) points).trans (State.point_onPoints_of_idem ps ?_ s p below)
    exact fun _ => rfl

end Sys2Proof.Machine
end

section
/-! The input map (2.2), and the reads of levels, fades and the audio state (1.5, 3.6, 2.6). -/

namespace Sys2Proof

/-- A table gone through with its numbers, as the numbers gone through with the table's entries. -/
theorem mapFrom_toList {α β : Type} {n : Nat} (f : Nat → α → β) (t : Table α n) (d : α) :
    mapFrom f 0 t.toList = (List.range n).map fun k => f k (t.getD k d) := by
  apply List.ext_getElem?
  intro j
  have size := t.size_eq
  rcases Nat.lt_or_ge j n with below | above
  · simp [getElem?_mapFrom, Table.getD, size, below]
  · simp [getElem?_mapFrom, size, above]

namespace Machine

/-! ## INPUT SWAP (R25) -/

theorem State.swapInputs_getD (s : State) {x y k : Nat} (below : k < 40) :
    (s.swapInputs x y).inputMap.getD k 0 =
      if k = x then s.inputMap.getD y 0 else if k = y then s.inputMap.getD x 0 else s.inputMap.getD k 0 := by
  have inside : k < Config.sources := below
  simp only [State.swapInputs, Table.getD_update, inside, and_true]
  by_cases second : k = y
  · subst second
    by_cases first : k = x
    · subst first
      simp
    · simp [first]
  · simp [second]

theorem State.swapInputs_self (s : State) (x : Nat) : s.swapInputs x x = s := by
  have map : (s.swapInputs x x).inputMap = s.inputMap := Table.ext_getD _ _ 0 fun k below => by
    rw [State.swapInputs_getD s below]
    by_cases same : k = x
    · rw [if_pos same, same]
    · rw [if_neg same, if_neg same]
  calc s.swapInputs x x = { s with inputMap := (s.swapInputs x x).inputMap } := rfl
    _ = s := by rw [map]

theorem State.swapInputs_swapInputs {s t : State} {x y : Nat} (map : t.inputMap = (s.swapInputs x y).inputMap)
    (hx : x < 40) (hy : y < 40) : (t.swapInputs x y).inputMap = s.inputMap :=
  Table.ext_getD _ _ 0 fun k below => by
    rw [State.swapInputs_getD t below, map]
    simp only [State.swapInputs_getD s hx, State.swapInputs_getD s hy, State.swapInputs_getD s below]
    grind

/-- The state after a served INPUT SWAP, before its answer: the map, and the report of two different sources (R25). -/
def State.inputsSwapped (l : Lane) (x y : Nat) (s : State) : State :=
  { s with
    inputMap := (s.swapInputs x y).inputMap
    record := if x = y then s.record
      else s.record.hand (.lane l) none none (.inputSwap x (s.inputMap.getD y 0) y (s.inputMap.getD x 0)) }

section
variable {l : Lane} (full : l ≠ .p) (tag : Byte) {x y : Nat} {s : State}
include full

theorem exec_inputSwap_outOfRange (out : 40 ≤ x ∨ 40 ≤ y) :
    exec (.inputSwap l tag x y) s = .next (s.answer (.inputSwap l tag x y) .outOfRange []) := by
  rw [exec, execInputSwap, fullOnly_full l _ _ _ full, if_pos (by simpa [Config.sources] using out)]

theorem exec_inputSwap_served (hx : x < 40) (hy : y < 40) :
    exec (.inputSwap l tag x y) s = .next ((s.inputsSwapped l x y).answer (.inputSwap l tag x y) .ok
      (be 1 x ++ be 1 (s.inputMap.getD y 0) ++ be 1 y ++ be 1 (s.inputMap.getD x 0))) := by
  have inRange : ¬ (decide (Config.sources ≤ x) || decide (Config.sources ≤ y)) = true := by
    simp [Config.sources, hx, hy]
  have first : (s.swapInputs x y).inputMap.getD x 0 = s.inputMap.getD y 0 := by
    rw [State.swapInputs_getD s hx, if_pos rfl]
  have second : (s.swapInputs x y).inputMap.getD y 0 = s.inputMap.getD x 0 := by
    rw [State.swapInputs_getD s hy]
    by_cases same : y = x
    · rw [if_pos same, same]
    · rw [if_neg same, if_pos rfl]
  rw [exec, execInputSwap, fullOnly_full l _ _ _ full, if_neg inRange]
  simp only [first, second]
  by_cases same : x = y
  · have stays : s.inputsSwapped l x y = s := by
      simp only [State.inputsSwapped, same, State.swapInputs_self, if_true]
    rw [if_pos same, stays]
  · have swapped : s.inputsSwapped l x y = (s.swapInputs x y).report (.lane l) none none
        (.inputSwap x (s.inputMap.getD y 0) y (s.inputMap.getD x 0)) := by
      simp only [State.inputsSwapped, same, if_false]
      rfl
    rw [if_neg same, swapped]

end

/-! ## INPUT RESTORE (R26) -/

theorem State.changedInputs_eq (s : State) :
    s.changedInputs = ((List.range 40).filter fun k => s.inputMap.getD k 0 != k).map fun k => (k, s.inputMap.getD k 0) := by
  rw [State.changedInputs, mapFrom_toList _ _ 0, List.filter_map]
  congr 1
  refine List.filter_congr fun k _ => ?_
  exact bne_comm

theorem State.length_changedInputs (s : State) :
    s.changedInputs.length = ((List.range 40).filter fun k => s.inputMap.getD k 0 != k).length := by
  rw [State.changedInputs_eq, List.length_map]

theorem State.inputMap_of_unchanged {s : State} (none_ : s.changedInputs.length = 0) : s.inputMap = .tabulate _ id := by
  rw [State.length_changedInputs, List.length_eq_zero_iff, List.filter_eq_nil_iff] at none_
  refine Table.ext_getD _ _ 0 fun k below => ?_
  rw [Table.getD_tabulate _ _ _ _ below]
  simpa using none_ k (List.mem_range.mpr below)

/-- The state after a served INPUT RESTORE, before its answer: the map, and the report of entries that differed (R26). -/
def State.inputsRestored (l : Lane) (s : State) : State :=
  { s with
    inputMap := .tabulate _ id
    record := if s.changedInputs.length = 0 then s.record
      else s.record.hand (.lane l) none none (.inputRestore s.changedInputs.length) }

theorem exec_inputRestore_served {l : Lane} (full : l ≠ .p) (tag : Byte) (s : State) :
    exec (.inputRestore l tag) s =
      .next ((s.inputsRestored l).answer (.inputRestore l tag) .ok (be 1 s.changedInputs.length)) := by
  rw [exec, execInputRestore, fullOnly_full l _ _ _ full]
  by_cases none_ : s.changedInputs.length = 0
  · have stays : s.inputsRestored l = s := by
      rw [State.inputsRestored, if_pos none_, ← State.inputMap_of_unchanged none_]
    rw [if_pos none_, stays]
  · have restored : s.inputsRestored l =
        State.report (.lane l) none none (.inputRestore s.changedInputs.length) { s with inputMap := .tabulate _ id } := by
      rw [State.inputsRestored, if_neg none_]
      rfl
    rw [if_neg none_, restored]

/-- Settles O16, one case of each request for each clause. -/
theorem inputMapIsSwappedRestoredAndRead : Obligations.InputMapIsSwappedRestoredAndRead := by
  refine ⟨fun l tag x y s => ⟨?swapRole, fun full out => .of_answer rfl (exec_inputSwap_outOfRange full tag out),
    fun full hx hy => ?swap⟩, fun l tag s => ⟨?restoreRole, fun full => ?restore, ?read⟩⟩
  case swapRole =>
    rintro rfl
    exact .of_answer rfl rfl
  case swap =>
    refine ⟨_, exec_inputSwap_served full tag hx hy, fun k below => State.swapInputs_getD s below, rfl,
      .of_answer rfl (Noticed.of_lanes (.refl s) rfl) _ _, State.answer_frame .., fun tag' u again => ?_⟩
    rw [exec_inputSwap_served full tag' hx hy] at again
    cases again
    rw [State.answer_inputMap]
    exact State.swapInputs_swapInputs rfl hx hy
  case restoreRole =>
    rintro rfl
    exact .of_answer rfl rfl
  case restore =>
    exact ⟨_, _, exec_inputRestore_served full tag s, s.length_changedInputs, fun k below => Table.getD_tabulate _ _ _ _ below,
      rfl, .of_answer rfl (Noticed.of_lanes (.refl s) rfl) _ _, State.answer_frame ..⟩
  case read =>
    refine .of_answer rfl ?_
    rw [exec, execInputMapRead, Table.toList_eq_range s.inputMap 0, List.flatMap_map]

/-! ## Runs of consecutive entries -/

/-- A run of entries is the numbers from the first on, as many as asked for, ended at the last there is. -/
theorem runOf_eq {size first : Nat} (inside : first ≤ size) (count : Nat) :
    runOf size first count = (List.range (min count (size - first))).map fun j => first + j := by
  obtain ⟨rest, split⟩ : ∃ rest, size = first + (min count (size - first) + rest) := ⟨size - first - min count (size - first), by omega⟩
  have before : (List.range first).filter (fun k => decide (first ≤ k) && decide (k < first + count)) = [] := by
    rw [List.filter_eq_nil_iff]
    intro k h
    rw [List.mem_range] at h
    simp only [Bool.and_eq_true, decide_eq_true_eq]
    omega
  generalize read : min count (size - first) = n at split ⊢
  rw [runOf, split, List.range_add, List.filter_append, before, List.nil_append, List.range_add, List.map_append,
    List.filter_append, List.filter_eq_self.mpr, List.filter_eq_nil_iff.mpr, List.append_nil]
  · intro k h
    simp only [List.mem_map, List.mem_range, Bool.and_eq_true, decide_eq_true_eq] at h ⊢
    omega
  · intro k h
    simp only [List.mem_map, List.mem_range, Bool.and_eq_true, decide_eq_true_eq] at h ⊢
    omega

theorem length_runOf {size first : Nat} (inside : first ≤ size) (count : Nat) :
    (runOf size first count).length = min count (size - first) := by
  rw [runOf_eq inside, List.length_map, List.length_range]

/-- The count of a read of consecutive entries lies in its range. -/
theorem count_inRange {count most : Nat} (low : 1 ≤ count) (high : count ≤ most) :
    ¬ (decide (count = 0) || decide (most < count)) = true := by
  simp only [Bool.or_eq_true, decide_eq_true_eq]
  omega

theorem count_outOfRange {count most : Nat} (out : count = 0 ∨ most < count) :
    (decide (count = 0) || decide (most < count)) = true := by simpa using out

/-! ## LEVEL READ, FADE STATUS and AUDIO STATUS (R18, R59, R37) -/

section
variable (l : Lane) (tag : Byte) {first count : Nat} (s : State)

theorem exec_levelRead_notFound (above : 1056 ≤ first) :
    exec (.levelRead l tag first count) s = .next (s.answer (.levelRead l tag first count) .notFound []) := if_pos above

theorem exec_levelRead_outOfRange (below : first < 1056) (out : count = 0 ∨ 16 < count) :
    exec (.levelRead l tag first count) s = .next (s.answer (.levelRead l tag first count) .outOfRange []) :=
  (if_neg (Nat.not_le.mpr below)).trans (if_pos (count_outOfRange out))

theorem exec_levelRead_served (below : first < 1056) (low : 1 ≤ count) (high : count ≤ 16) :
    exec (.levelRead l tag first count) s = .next (s.answer (.levelRead l tag first count) .ok
      (be 1 (runOf 1056 first count).length ++ (runOf 1056 first count).flatMap fun p => pointEntry p (s.point p))) :=
  (if_neg (Nat.not_le.mpr below)).trans (if_neg (count_inRange low high))

theorem exec_fadeStatus_notFound (above : 32 ≤ first) :
    exec (.fadeStatus l tag first count) s = .next (s.answer (.fadeStatus l tag first count) .notFound []) := if_pos above

theorem exec_fadeStatus_outOfRange (below : first < 32) (out : count = 0 ∨ 8 < count) :
    exec (.fadeStatus l tag first count) s = .next (s.answer (.fadeStatus l tag first count) .outOfRange []) :=
  (if_neg (Nat.not_le.mpr below)).trans (if_pos (count_outOfRange out))

theorem exec_fadeStatus_served (below : first < 32) (low : 1 ≤ count) (high : count ≤ 8) :
    exec (.fadeStatus l tag first count) s = .next (s.answer (.fadeStatus l tag first count) .ok
      (be 1 s.freeSlots ++ be 2 s.poolFree ++ be 1 (runOf 32 first count).length
        ++ (runOf 32 first count).flatMap fun k => fadeEntry k (s.slot k))) :=
  (if_neg (Nat.not_le.mpr below)).trans (if_neg (count_inRange low high))

end

/-- Settles O15: a run of entries is the numbers from the first on. -/
theorem levelFadeAndAudioReadsReportTheState : Obligations.LevelFadeAndAudioReadsReportTheState := by
  intro l tag first count s
  refine ⟨fun above => .of_answer rfl (exec_levelRead_notFound l tag s above),
    fun below out => .of_answer rfl (exec_levelRead_outOfRange l tag s below out), fun below low high => ?levels,
    fun above => .of_answer rfl (exec_fadeStatus_notFound l tag s above),
    fun below out => .of_answer rfl (exec_fadeStatus_outOfRange l tag s below out), fun below low high => ?fades, ?audio⟩
  case levels =>
    refine .of_answer rfl ((exec_levelRead_served l tag s below low high).trans ?_)
    rw [length_runOf below.le, runOf_eq below.le, List.flatMap_map]
    rfl
  case fades =>
    refine .of_answer rfl ((exec_fadeStatus_served l tag s below low high).trans ?_)
    rw [length_runOf below.le, runOf_eq below.le, List.flatMap_map]
    rfl
  case audio =>
    refine .of_answer rfl ?_
    rw [exec, execAudioStatus, State.changedInputs_eq, List.flatMap_map, List.length_map]
    simp only [List.append_assoc]
    rfl

end Machine

end Sys2Proof
end

section
/-! Duck ramps (6.3), ALARMS ACK (7.5), the resets of the engine (10.8), and trigger lines (5.8). -/

namespace Sys2Proof.Machine

/-- States alike in every field are one. -/
theorem State.ext_fields {s t : State} (lanes : s.lanes = t.lanes) (points : s.points = t.points) (inputMap : s.inputMap = t.inputMap)
    (masks : s.masks = t.masks) (audio : s.audio = t.audio) (slots : s.slots = t.slots) (store : s.store = t.store)
    (runner : s.runner = t.runner) (zones : s.zones = t.zones) (calls : s.calls = t.calls) (watch : s.watch = t.watch)
    (record : s.record = t.record) (staging : s.staging = t.staging) (causes : s.causes = t.causes)
    (timeBase : s.timeBase = t.timeBase) (pending : s.pending = t.pending) : s = t := by
  cases s
  cases t
  simp_all

/-! ## Duck ramps (R109) -/

theorem rampDuck_eq_floor (d0 dT : Int) (t tr : Nat) :
    rampDuck d0 dT t tr = d0 + ⌊(((dT - d0) * (t : ℤ) : ℤ) : ℚ) / (tr : ℚ)⌋ := by
  rw [Rat.floor_intCast_div_natCast]
  rfl

/-- A part of a whole, rounded down, lies between nothing and the whole. -/
theorem portion_between (x : Int) {e tr : Nat} (pos : 1 ≤ tr) (within : e ≤ tr) :
    min 0 x ≤ x * e / tr ∧ x * e / tr ≤ max 0 x := by
  have positive : (0 : Int) < tr := by exact_mod_cast pos
  have part : (0 : Int) ≤ e ∧ (e : Int) ≤ tr := ⟨by positivity, by exact_mod_cast within⟩
  rcases le_total 0 x with up | down
  · rw [min_eq_left up, max_eq_right up]
    refine ⟨Int.ediv_nonneg (mul_nonneg up part.1) positive.le, Int.ediv_le_of_le_mul positive ?_⟩
    exact mul_le_mul_of_nonneg_left part.2 up
  · rw [min_eq_right down, max_eq_left down]
    refine ⟨(Int.le_ediv_iff_mul_le positive).mpr (mul_le_mul_of_nonpos_left part.2 down), ?_⟩
    exact Int.ediv_nonpos_of_nonpos_of_neg (mul_nonpos_of_nonpos_of_nonneg down part.1) positive

theorem rampDuck_between (d0 dT : Int) {e tr : Nat} (pos : 1 ≤ tr) (within : e ≤ tr) :
    min d0 dT ≤ rampDuck d0 dT e tr ∧ rampDuck d0 dT e tr ≤ max d0 dT := by
  obtain ⟨low, high⟩ := portion_between (dT - d0) pos within
  unfold rampDuck
  omega

theorem rampDuck_zero (d0 dT : Int) (tr : Nat) : rampDuck d0 dT 0 tr = d0 := by simp [rampDuck]

theorem rampDuck_end (d0 dT : Int) {tr : Nat} (pos : 1 ≤ tr) : rampDuck d0 dT tr tr = dT := by
  have nonzero : (tr : Int) ≠ 0 := by exact_mod_cast Nat.one_le_iff_ne_zero.mp pos
  rw [rampDuck, Int.mul_ediv_cancel _ nonzero]
  omega

theorem State.zone_advanceRamps (s : State) (z : Nat) : s.advanceRamps.zone z = (s.zone z).tick := by
  rcases Nat.lt_or_ge z Config.zones with below | above
  · exact Table.getD_mapIdx _ _ _ _ _ below
  · have absent : ∀ t : State, t.zone z = {} := fun t => Table.getD_of_le _ _ _ above
    rw [absent, absent]
    rfl

theorem Zone.tick_of_none {z : Zone} (idle : z.ramp = none) : z.tick = z := by rw [Zone.tick, idle]

theorem Zone.endRamp_of_ramp {z : Zone} {r : Ramp} (moving : z.ramp = some r) :
    z.endRamp = { z with duck := r.target, ramp := none } := by rw [Zone.endRamp, moving]

/-- Settles O48. -/
theorem duckRampsMoveByTheExactLine : Obligations.DuckRampsMoveByTheExactLine := by
  refine ⟨fun s => ⟨s.advanceRamps, rfl, rfl, fun z => ⟨fun idle => ?_, fun r moving => ⟨fun under => ?_, fun done => ?_⟩⟩⟩,
    fun s z r below moving => ⟨_, rfl, fun k => ?_, rfl⟩, fun d0 dT e tr pos within => ?_⟩
  · rw [State.zone_advanceRamps, Zone.tick_of_none idle]
  · rw [State.zone_advanceRamps, Zone.tick_of_ramp _ r moving, if_neg (by omega), rampDuck_eq_floor]
    rfl
  · rw [State.zone_advanceRamps, Zone.tick_of_ramp _ r moving, if_pos done]
  · refine (s.zone_onZone z k _).trans ?_
    by_cases same : k = z
    · rw [if_pos ⟨same, same ▸ below⟩, if_pos same, same, Zone.endRamp_of_ramp moving]
    · rw [if_neg fun h => same h.1, if_neg same]
  · obtain ⟨low, high⟩ := rampDuck_between d0 dT pos within
    exact ⟨rampDuck_eq_floor .., low, high, rampDuck_zero .., rampDuck_end _ _ pos⟩

/-! ## ALARMS ACK (R135) -/

theorem State.ackZone_of_over {s : State} {l : Lane} {z : Nat} (raised : (s.watchZone z).overAlarm = true) :
    s.ackZone l z = (s.onWatchZone z fun w => { w with overAlarm := false }).alarmEvent (.lane l) z (.alarmClear true .ack) :=
  if_pos raised

/-- `s` with the lanes, the watch's zones and the record of `t`. -/
def State.watching (s t : State) : State :=
  { s with lanes := t.lanes, watch := { s.watch with zones := t.watch.zones }, record := t.record }

theorem State.watching_trans {s t u : State} (h : t = s.watching t) (g : u = t.watching u) : u = s.watching u :=
  calc u = t.watching u := g
    _ = (s.watching t).watching u := by rw [← h]
    _ = s.watching u := rfl

/-- Zones acknowledged in order, each with its OVER set and none twice: their OVER alarms, the reports, and ALARM if there is
any. -/
theorem foldl_ackZone (l : Lane) (zs : List Nat) (s : State) (distinct : zs.Nodup)
    (raised : ∀ z ∈ zs, z < Config.zones ∧ (s.watchZone z).overAlarm = true) :
    let t := zs.foldl (fun s z => s.ackZone l z) s
    (∀ y, t.watchZone y = if y ∈ zs then { s.watchZone y with overAlarm := false } else s.watchZone y) ∧
      t.record = zs.foldl (fun r z => r.hand (.lane l) none (some z) (.alarmClear true .ack)) s.record ∧
      Noticed s t (if zs = [] then [] else [.alarm]) ∧
      t = s.watching t := by
  induction zs generalizing s with
  | nil => exact ⟨fun y => rfl, rfl, .refl s, rfl⟩
  | cons z zs ih =>
    obtain ⟨new, distinct⟩ := List.nodup_cons.mp distinct
    obtain ⟨below, set⟩ := raised z List.mem_cons_self
    have zone : ∀ y, (s.ackZone l z).watchZone y = if y = z then { s.watchZone y with overAlarm := false } else s.watchZone y :=
      fun y => by
        rw [State.ackZone_of_over set]
        refine (s.watchZone_onWatchZone z y _).trans ?_
        by_cases same : y = z
        · rw [if_pos ⟨same, same ▸ below⟩, if_pos same]
        · rw [if_neg fun h => same h.1, if_neg same]
    have noticed : Noticed s (s.ackZone l z) [.alarm] := by
      rw [State.ackZone_of_over set]
      exact ((Noticed.refl s).of_lanes rfl).noticeAll .alarm
    have record' : (s.ackZone l z).record = s.record.hand (.lane l) none (some z) (.alarmClear true .ack) := by
      rw [State.ackZone_of_over set]
      rfl
    have first : s.ackZone l z = s.watching (s.ackZone l z) := by
      rw [State.ackZone_of_over set]
      rfl
    obtain ⟨zones, record, more, frame⟩ := ih (s.ackZone l z) distinct fun y mem => by
      obtain ⟨inside, held⟩ := raised y (List.mem_cons_of_mem z mem)
      have other : y ≠ z := fun e => new (e ▸ mem)
      rw [zone, if_neg other]
      exact ⟨inside, held⟩
    refine ⟨fun y => ?_, ?_, fun m => ?_, ?_⟩
    · refine (zones y).trans ?_
      rw [zone]
      by_cases same : y = z
      · subst same
        simp [new]
      · simp [same]
    · rw [record'] at record
      exact record
    · refine ((noticed.trans more) m).trans ?_
      rw [if_neg (List.cons_ne_nil z zs)]
      split
      · rfl
      · exact LaneState.notify_notify_self ..
    · exact State.watching_trans first frame

theorem exec_alarmsAck_served {l : Lane} (full : l ≠ .p) (tag : Byte) {zs : ZoneSet} (named : zs ≠ 0) (s : State) :
    let cleared := (List.range 32).filter fun z => zs.getLsbD z && (s.watchZone z).overAlarm
    exec (.alarmsAck l tag zs) s = .next ((cleared.foldl (fun s z => s.ackZone l z) s).answer (.alarmsAck l tag zs) .ok
      (be 1 cleared.length ++ cleared.flatMap (be 1))) := by
  intro cleared
  have same : (zoneList zs).filter (fun z => (s.watchZone z).overAlarm) = cleared := by
    rw [zoneList, List.filter_filter]
    exact List.filter_congr fun z _ => Bool.and_comm ..
  rw [exec, execAlarmsAck, fullOnly_full l _ _ _ full, if_neg named]
  simp only [same]

/-- Settles O50. -/
theorem alarmsAckClearsOver : Obligations.AlarmsAckClearsOver := by
  intro l tag zs s full
  refine ⟨fun empty => .of_answer rfl ?_, fun named => ?_⟩
  · rw [exec, execAlarmsAck, fullOnly_full l _ _ _ full, if_pos empty]
  · intro cleared
    obtain ⟨zones, record, noticed, frame⟩ := foldl_ackZone l cleared s (List.nodup_range.filter _) fun z mem => by
      obtain ⟨below, set⟩ := List.mem_filter.mp mem
      exact ⟨List.mem_range.mp below, ((Bool.and_eq_true ..).mp set).2⟩
    refine ⟨_, exec_alarmsAck_served full tag named s, zones, record, .of_answer rfl noticed _ _, ?_⟩
    have answered := State.answer_frame (cleared.foldl (fun s z => s.ackZone l z) s) (.alarmsAck l tag zs) .ok
      (be 1 cleared.length ++ cleared.flatMap (be 1))
    rw [answered, frame]
    rfl

/-! ## Power-on and the reset pin (R184) -/

/-- Settles O54. -/
theorem powerOnAndResetPinGiveTheirState : Obligations.PowerOnAndResetPinGiveTheirState := by
  refine ⟨fun s => ⟨rfl, rfl⟩, fun p => Table.getD_replicate_same .., fun k => Table.getD_replicate_same ..,
    fun k below => Table.getD_tabulate _ _ _ _ below, fun m => Table.getD_replicate_same .., rfl, rfl,
    fun g => Table.getD_replicate_same .., fun z => Table.getD_replicate_same .., rfl, rfl,
    fun n below => Table.getD_replicate _ _ _ _ below, rfl, rfl, rfl, rfl, rfl, fun n => Table.getD_replicate_same ..,
    fun z => Table.getD_replicate_same .., rfl, fun z => Table.getD_replicate_same .., rfl, rfl, rfl, rfl, rfl, fun l => ?_,
    sound_of_reset rfl rfl rfl rfl rfl rfl rfl rfl rfl⟩
  cases l <;> rfl

/-! ## ENGINE RESET and CAUSES CLEAR (R185, R186) -/

theorem State.length_usedSlots (s : State) :
    s.usedSlots.length = ((List.range 32).filter fun k => (s.slot k).isSome).length := by
  have used : ∀ xs : List (Option FadeSlot), (xs.filterMap id).length = (xs.filter Option.isSome).length := fun xs => by
    induction xs with
    | nil => rfl
    | cons x xs ih => cases x <;> simpa using ih
  rw [State.usedSlots, used, Table.toList_eq_range s.slots none, List.filter_map, List.length_map]
  rfl

theorem State.zone_endCalls (s : State) (z : Nat) : s.endCalls.zone z = ⟨(s.zone z).route, 0, none, false⟩ := by
  rcases Nat.lt_or_ge z Config.zones with below | above
  · exact Table.getD_mapIdx _ _ _ _ _ below
  · have absent : ∀ t : State, t.zone z = {} := fun t => Table.getD_of_le _ _ _ above
    rw [absent, absent]

theorem State.watchZone_clearQuiet (s : State) (z : Nat) : s.clearQuiet.watchZone z = { s.watchZone z with quiet := 0 } := by
  rcases Nat.lt_or_ge z Config.zones with below | above
  · exact Table.getD_mapIdx _ _ _ _ _ below
  · have absent : ∀ t : State, t.watchZone z = {} := fun t => Table.getD_of_le _ _ _ above
    rw [absent, absent]

theorem State.lane_engineReset (s : State) (l m : Lane) :
    (s.engineReset l).lanes.get m = { s.lanes.get m with notices := { reset := true } } := PerLane.get_map _ _ _

/-- Settles O55. -/
theorem engineResetStopsMotionAndKeepsTheShow : Obligations.EngineResetStopsMotionAndKeepsTheShow := by
  intro l tag s full
  refine ⟨⟨_, fullOnly_full l _ _ _ full, ?_, rfl, fun n => Table.getD_replicate_same .., s.slot_freezeFades, s.point_freezeFades,
    rfl, s.zone_endCalls, s.watchZone_clearQuiet, rfl, fun m => ?_, State.answer_frame ..⟩,
    ⟨_, fullOnly_full l _ _ _ full, ?_, State.answer_frame ..⟩⟩
  · rw [State.answer_record, ← State.length_usedSlots]
    rfl
  · rw [State.lane_answer _ _ l m ⟨tag, 0x60, []⟩ _ _ rfl, State.lane_engineReset]
    rfl
  · have lane : (s.causes.lane.map laneCode).getD 0 = match s.causes.lane with
        | none => 0 | some .a => 1 | some .b => 2 | some .p => 3 := by
      rcases s.causes.lane with _ | _ | _ | _ <;> rfl
    have body : s.causes.chars = [flag s.causes.power, flag s.causes.pin, flag s.causes.engine]
        ++ be 1 ((s.causes.lane.map laneCode).getD 0) ++ be 2 s.causes.count := rfl
    rw [lane] at body
    rw [body]
    exact .of_answer rfl (Noticed.of_lanes (.refl s) rfl) _ _

end Sys2Proof.Machine
end

section
/-! Events handed to the record: of what falls due in a millisecond only a curtain cue's GO changes the performance's state. -/

namespace Sys2Proof.Machine

/-! ## Events handed to the record -/

/-- A record after events have been handed to it, none of which starts or ends a performance. -/
structure Record.Handed (r t : Record) : Prop where
  state : t.state = r.state
  startMode : t.startMode = r.startMode
  clock : t.clock = r.clock
  idle : r.state.inShow = false → t = r

namespace Record.Handed

theorem refl (r : Record) : r.Handed r := ⟨rfl, rfl, rfl, fun _ => rfl⟩

theorem of_eq {r t : Record} (e : t = r) : r.Handed t := e ▸ refl r

theorem trans {r t u : Record} (h : r.Handed t) (g : t.Handed u) : r.Handed u where
  state := g.state.trans h.state
  startMode := g.startMode.trans h.startMode
  clock := g.clock.trans h.clock
  idle idle := (g.idle (h.state ▸ idle)).trans (h.idle idle)

theorem hand (r : Record) (lane : LogLane) (cue zone : Option Nat) (d : Detail) : r.Handed (r.hand lane cue zone d) :=
  ⟨Record.hand_state .., Record.hand_startMode .., Record.hand_clock .., Record.hand_of_not_inShow _ _ _ _ _⟩

theorem awaitsCurtain {r t : Record} (h : r.Handed t) : t.awaitsCurtain = r.awaitsCurtain := by
  rw [Record.awaitsCurtain, Record.awaitsCurtain, h.state, h.startMode]

end Record.Handed

/-- Unless a curtain cue's GO starts a performance, what is done to the record is that events are handed to it. -/
structure Steady (s t : State) : Prop where
  handed : s.record.awaitsCurtain = false → s.record.Handed t.record

namespace Steady

theorem of_record {s t : State} (e : t.record = s.record) : Steady s t := ⟨fun _ => .of_eq e⟩

theorem refl (s : State) : Steady s s := .of_record rfl

theorem trans {s t u : State} (h : Steady s t) (g : Steady t u) : Steady s u :=
  ⟨fun noCurtain => (h.handed noCurtain).trans (g.handed ((h.handed noCurtain).awaitsCurtain.trans noCurtain))⟩

theorem report (s : State) (lane : LogLane) (cue zone : Option Nat) (d : Detail) : Steady s (s.report lane cue zone d) :=
  ⟨fun _ => .hand ..⟩

theorem foldl {α : Type} {f : State → α → State} (step : ∀ s x, Steady s (f s x)) (xs : List α) (s : State) :
    Steady s (xs.foldl f s) := by
  induction xs generalizing s with
  | nil => exact .refl s
  | cons x xs ih => exact (step s x).trans (ih (f s x))

end Steady

section
variable (s : State)

theorem State.snapReport_steady (owner : Option Nat) (c i n : Nat) : Steady s (s.snapReport owner c i n) := by
  unfold State.snapReport
  cases owner with
  | none => exact .report ..
  | some o => exact (Steady.of_record (s.onRun_record ..)).trans (.report ..)

theorem State.moveLevels_steady (owner : Option Nat) (c i : Nat) (ps : List Nat) (v : Int) (time : Nat) (curve : Curve)
    (clear : Bool) : Steady s (s.moveLevels owner c i ps v time curve clear) := by
  have jumped : Steady s (s.onPoints ps (Point.jump v clear)) := .of_record (by simp)
  unfold State.moveLevels
  split
  · exact jumped
  · split
    · split
      · exact .of_record (by simp)
      · exact jumped.trans (State.snapReport_steady ..)
    · exact jumped.trans (State.snapReport_steady ..)

theorem State.handAction_steady (owner : Option Nat) (c i : Nat) (a : Action) : Steady s (s.handAction owner c i a) := by
  cases a with
  | level g v time curve clear =>
    change Steady s (s.levelAction owner c i g v time curve clear)
    unfold State.levelAction
    dsimp only
    split
    · exact .refl s
    · exact (Steady.of_record (by simp)).trans (State.moveLevels_steady ..)
  | route z m => exact .of_record rfl
  | mask m on => exact .of_record rfl
  | trigger n mode => exact .of_record rfl
  | halt g => exact .of_record (State.haltAction_record ..)

theorem handActions_steady (owner : Option Nat) (c k : Nat) (acts : List Action) : Steady s (handActions owner c k acts s) := by
  induction acts generalizing k s with
  | nil => exact .refl s
  | cons a acts ih => exact (s.handAction_steady owner c k a).trans (ih _ _)

theorem State.dispatch_steady (c : Nat) : Steady s (s.dispatch c) :=
  (handActions_steady s (some c) c 0 (s.actionsOf c)).trans (.of_record (State.checkCompletion_record (State.onRun c _ _) c))

theorem State.retire_steady (c : Nat) (cause : RetireCause) (origin : Origin) : Steady s (s.retire c cause origin) := by
  unfold State.retire
  split
  · exact .refl s
  · dsimp only
    refine Steady.trans (t := State.dropRun c _) ?_ (.report ..)
    split
    · exact (Steady.of_record (s.orphan_record c)).trans ((handActions_steady _ none c 0 (s.actionsOf c)).trans (.of_record rfl))
    · exact .of_record rfl

theorem State.makeRoom_steady (c : Nat) (origin : Origin) : Steady s (s.makeRoom c origin) := by
  unfold State.makeRoom
  dsimp only
  split
  · exact s.retire_steady ..
  · split
    · exact (s.retire_steady ..).trans (State.retire_steady ..)
    · exact s.retire_steady ..

theorem State.startByCurtain_steady (rec : Cue) (origin : Origin) : Steady s (s.startByCurtain rec origin) := by
  refine ⟨fun noCurtain => ?_⟩
  rw [State.startByCurtain, if_neg (by simp [noCurtain])]
  exact .refl _

theorem State.recordGo_steady (rec : Cue) (origin : Origin) : Steady s (s.recordGo rec origin) :=
  ⟨fun _ => .hand s.record origin.logLane (some rec.number) none (goDetail origin s.runner.standby)⟩

theorem State.takeGo_steady (rec : Cue) (origin : Origin) : Steady s (s.takeGo rec origin) := by
  have made : Steady s ((s.makeRoom rec.number origin).addRun rec origin) :=
    (s.makeRoom_steady rec.number origin).trans (.of_record (State.addRun_record ..))
  have recorded := (made.trans (State.startByCurtain_steady _ rec origin)).trans (State.recordGo_steady _ rec origin)
  unfold State.takeGo
  dsimp only
  split
  · exact recorded.trans (State.dispatch_steady ..)
  · exact recorded

theorem State.voidFollow_steady (c : Nat) (f : Run → Run) (d : Detail) :
    Steady s ((((s.onRun c f).report .follow (some c) none d).checkCompletion c).noticeAll .run) := by
  have ended : Steady s (s.onRun c f) := .of_record rfl
  have checked := (ended.trans (.report _ .follow (some c) none d)).trans (.of_record (State.checkCompletion_record _ c))
  exact checked.trans (.of_record rfl)

theorem State.expireFollow_steady (c : Nat) : Steady s (s.expireFollow c).1 := by
  unfold State.expireFollow
  split
  · exact .refl s
  · split
    · dsimp only
      split
      · split
        · have ended : Steady s (s.onRun c fun r => { r with followState := .none, followRemaining := 0 }) := .of_record rfl
          exact (ended.trans (.of_record (State.checkCompletion_record _ c))).trans (State.takeGo_steady ..)
        · exact s.voidFollow_steady ..
      · exact s.voidFollow_steady ..
    · exact .refl s

theorem takeRuns_steady {f : Nat → State → State × Option Nat} (each : ∀ c s, Steady s (f c s).1) (cues : List Nat) :
    Steady s (takeRuns f cues s) := by
  unfold takeRuns
  generalize ([] : List Nat) = gone
  induction cues generalizing s gone with
  | nil => exact .refl s
  | cons c cues ih =>
    rw [List.foldl_cons]
    split
    · exact ih s gone
    · exact (each c s).trans (ih _ _)

theorem State.dispatchDue_steady (c : Nat) : Steady s (s.dispatchDue c) := by
  unfold State.dispatchDue
  split
  · exact .refl s
  · split
    · exact s.dispatch_steady c
    · exact .refl s

theorem State.takeDue_steady (preWaits follows : List Nat) : Steady s (s.takeDue preWaits follows) :=
  (Steady.foldl (fun s c => s.dispatchDue_steady c) preWaits s).trans (takeRuns_steady _ (fun c s => s.expireFollow_steady c) follows)

theorem State.goLive_steady (old : ZoneSet) (c : Call) : Steady s (s.goLive old c) := ⟨fun _ => .hand ..⟩

theorem State.endLive_steady (reason : EndReason) (next : Option Call) : Steady s (s.endLive reason next) := by
  unfold State.endLive
  split
  · exact .refl s
  · dsimp only
    split
    · exact ⟨fun _ => .hand ..⟩
    · exact Steady.trans ⟨fun _ => .hand ..⟩ ((State.goLive_steady ..).trans (.of_record rfl))

theorem State.timeoutDue_steady : Steady s s.timeoutDue := by
  unfold State.timeoutDue State.endAndGrant
  split
  · exact .refl s
  · split
    · split
      · exact s.endLive_steady ..
      · next c _ =>
        have gone : Steady s { s with calls := { s.calls with waiting := s.calls.waiting.erase c } } := .of_record rfl
        exact gone.trans (State.endLive_steady ..)
    · exact .refl s

end

end Sys2Proof.Machine
end

section
/-! Fades that advance and complete (3.2): what a completion tells its owner's run, and what a millisecond of every slot leaves. -/

namespace Sys2Proof.Machine

/-! ## What leaves the runner alone but for its runs -/

/-- Of the runner nothing but the run list may differ. -/
structure RunsAlone (s t : State) : Prop where
  runner : t.runner = { s.runner with runs := t.runner.runs }

namespace RunsAlone

theorem of_runner {s t : State} (e : t.runner = s.runner) : RunsAlone s t := ⟨by rw [e]⟩

theorem refl (s : State) : RunsAlone s s := ⟨rfl⟩

theorem trans {s t u : State} (h : RunsAlone s t) (g : RunsAlone t u) : RunsAlone s u := ⟨by rw [g.runner, h.runner]⟩

theorem foldl {α : Type} {f : State → α → State} (step : ∀ s x, RunsAlone s (f s x)) (xs : List α) (s : State) :
    RunsAlone s (xs.foldl f s) := by
  induction xs generalizing s with
  | nil => exact .refl s
  | cons x xs ih => exact (step s x).trans (ih (f s x))

theorem lines {s t : State} (h : RunsAlone s t) : t.runner.lines = s.runner.lines := by rw [h.runner]

end RunsAlone

section
variable (s : State)

theorem State.checkCompletion_runsAlone (c : Nat) : RunsAlone s (s.checkCompletion c) := by
  rcases s.checkCompletion_cases c with e | ⟨_, _, _, e⟩
  · rw [e]
    exact .refl s
  · rw [e]
    exact ⟨rfl⟩

theorem State.freeingReport_runsAlone (c : Nat) : RunsAlone s (s.freeingReport c) :=
  RunsAlone.trans (t := s.onRun c Run.slotFreed) ⟨rfl⟩ (State.checkCompletion_runsAlone _ c)

theorem State.reportFreed_runsAlone (owner : Option Nat) : RunsAlone s (s.reportFreed owner) := by
  cases owner with
  | none => exact .refl s
  | some c => exact s.freeingReport_runsAlone c

theorem State.completeSlot_runsAlone (k : Nat) : RunsAlone s (s.completeSlot k) := by
  unfold State.completeSlot
  split
  · exact .refl s
  · next f _ =>
    exact RunsAlone.trans (t := (s.completeMembers f).setSlot k none) (.of_runner (s.completeMembers_runner f))
      (State.reportFreed_runsAlone _ _)

theorem State.advanceSlot_runsAlone (k : Nat) : RunsAlone s (s.advanceSlot k) := by
  rcases s.advanceSlot_cases k with ⟨_, e⟩ | ⟨f, _, ⟨_, e⟩ | ⟨_, e⟩⟩
  · rw [e]
    exact .refl s
  · rw [e]
    exact s.completeSlot_runsAlone k
  · rw [e]
    exact .of_runner (s.writeFade_runner f _)

theorem State.advanceSlots_runsAlone : RunsAlone s s.advanceSlots := .foldl (fun s k => s.advanceSlot_runsAlone k) _ s

end

/-! ## Completion (R44) -/

/-- A run of whose cue is dropped need not have been changed before. -/
theorem State.dropRun_onRun (s : State) (c : Nat) {f : Run → Run} (same : ∀ r, (f r).cue = r.cue) :
    (s.onRun c f).dropRun c = s.dropRun c := by
  have runs : (s.runner.runs.map fun r => if r.cue = c then f r else r).filter (fun r => r.cue != c) =
      s.runner.runs.filter fun r => r.cue != c := by
    induction s.runner.runs with
    | nil => rfl
    | cons r rs ih =>
      by_cases own : r.cue = c
      · simp [own, same, ih]
      · simp [own, ih]
  unfold State.dropRun State.onRun
  dsimp only
  rw [runs]

theorem State.checkCompletion_of_not_done {s : State} {c : Nat} {r : Run} (found : s.run? c = some r) (stays : r.isDone = false) :
    s.checkCompletion c = s := by
  simp only [State.checkCompletion, found, stays, Bool.false_eq_true, if_false]

theorem State.checkCompletion_of_done {s : State} {c : Nat} {r : Run} (found : s.run? c = some r) (done : r.isDone = true) :
    s.checkCompletion c = s.dropRun c := by
  simp only [State.checkCompletion, found, done, if_true]

section
variable {s : State} {c : Nat} {r : Run} (found : s.run? c = some r)
include found

theorem State.run?_onRun_slotFreed : (s.onRun c Run.slotFreed).run? c = some r.slotFreed := by
  rw [State.run?_onRun _ _ _ _ Run.slotFreed_cue, if_pos rfl, found]
  rfl

theorem State.freeingReport_of_not_done (stays : r.slotFreed.isDone = false) : s.freeingReport c = s.onRun c Run.slotFreed :=
  State.checkCompletion_of_not_done (State.run?_onRun_slotFreed found) stays

theorem State.freeingReport_of_done (done : r.slotFreed.isDone = true) : s.freeingReport c = s.dropRun c :=
  (State.checkCompletion_of_done (State.run?_onRun_slotFreed found) done).trans (s.dropRun_onRun c Run.slotFreed_cue)

end

theorem Run.slotFreed_of_more {r : Run} (more : 1 < r.slots) :
    r.slotFreed = { r with slots := r.slots - 1 } ∧ r.slotFreed.isDone = false := by
  obtain ⟨n, e⟩ : ∃ n, r.slots = n + 2 := ⟨r.slots - 2, by omega⟩
  have freed : r.slotFreed = { r with slots := r.slots - 1 } := by
    unfold Run.slotFreed
    rw [e]
    cases r.followState <;> rfl
  refine ⟨freed, ?_⟩
  rw [freed]
  simp [Run.isDone, e]

theorem Run.slotFreed_of_last_waiting {r : Run} (last : r.slots = 1) (waits : r.followState = .waitingEnd) :
    r.slotFreed = { r with slots := 0, followState := .timing, followRemaining := r.follow.value } ∧ r.slotFreed.isDone = false := by
  have freed : r.slotFreed = { r with slots := 0, followState := .timing, followRemaining := r.follow.value } := by
    unfold Run.slotFreed
    rw [last, waits]
    rfl
  refine ⟨freed, ?_⟩
  rw [freed]
  simp [Run.isDone]

theorem Run.slotFreed_of_last_done {r : Run} (last : r.slots = 1) (active : r.state = .active) (none_ : r.followState = .none) :
    r.slotFreed.isDone = true := by
  unfold Run.slotFreed
  rw [last, none_]
  simp [Run.isDone, active]

theorem State.completeSlot_eq {s : State} {k : Nat} {f : FadeSlot} (used : s.slot k = some f) :
    s.completeSlot k = ((s.completeMembers f).setSlot k none).reportFreed f.owner := by
  rw [State.completeSlot, used]

theorem State.point_completeSlot {s : State} {k : Nat} {f : FadeSlot} (used : s.slot k = some f) {p : Nat} (below : p < Config.points) :
    (s.completeSlot k).point p =
      if ∃ m ∈ f.members, m.point = p then { s.point p with base := clampBase f.target, membership := none } else s.point p := by
  have points : (s.completeSlot k).points = (s.completeMembers f).points := by
    rw [State.completeSlot_eq used, State.reportFreed_points]
    rfl
  have point : (s.completeSlot k).point p = (s.completeMembers f).point p := congrArg (fun t => t.getD p {}) points
  rw [point]
  refine (State.point_onPoints_of_idem _ ?_ s p below).trans ?_
  · exact fun _ => rfl
  · simp only [List.mem_map]

theorem State.completeSlot_frame (s : State) (k : Nat) : s.completeSlot k = { s with
    lanes := (s.completeSlot k).lanes, points := (s.completeSlot k).points, slots := (s.completeSlot k).slots,
    runner := (s.completeSlot k).runner } := by
  apply State.ext_fields <;> simp

theorem State.completeMembers_runs (s : State) (f : FadeSlot) (k : Nat) (c : Nat) :
    ((s.completeMembers f).setSlot k none).run? c = s.run? c := by
  have runner : ((s.completeMembers f).setSlot k none).runner = s.runner := s.completeMembers_runner f
  rw [State.run?, runner]
  rfl

/-- Settles O24: the completion writes the members and frees the slot, and the rest is the report to the owner. -/
theorem fadeCompletionFreesAndReports : Obligations.FadeCompletionFreesAndReports := by
  intro s k f used
  have lanes : ((s.completeMembers f).setSlot k none).lanes = s.lanes := s.completeMembers_lanes f
  have runner : ((s.completeMembers f).setSlot k none).runner = s.runner := s.completeMembers_runner f
  refine ⟨_, rfl, ?_, fun j other => ?_, fun p below => State.point_completeSlot used below, s.completeSlot_frame k,
    fun ownerless => ?_, fun c r owned found => ?_⟩
  · rw [State.slot_completeSlot, if_pos rfl]
  · rw [State.slot_completeSlot, if_neg other]
  · rw [State.completeSlot_eq used, ownerless]
    exact ⟨runner, lanes⟩
  · have reported : s.completeSlot k = ((s.completeMembers f).setSlot k none).freeingReport c := by
      rw [State.completeSlot_eq used, owned]
      rfl
    rw [← s.completeMembers_runs f k] at found
    rw [reported]
    refine ⟨fun more => ?_, fun last waits => ?_, fun last active none_ => ?_⟩
    · obtain ⟨freed, stays⟩ := Run.slotFreed_of_more more
      rw [State.freeingReport_of_not_done found stays, State.run?_onRun_slotFreed found, freed]
      exact ⟨rfl, lanes⟩
    · obtain ⟨freed, stays⟩ := Run.slotFreed_of_last_waiting last waits
      rw [State.freeingReport_of_not_done found stays, State.run?_onRun_slotFreed found, freed]
    · rw [State.freeingReport_of_done found (Run.slotFreed_of_last_done last active none_)]
      refine ⟨?_, ((Noticed.refl s).of_lanes ?_).noticeAll .run⟩
      · rw [← runner]
        rfl
      · exact lanes

/-! ## A millisecond of every slot (R41 to R44) -/

/-- A slot after a millisecond: FREE if its duration is over, else one millisecond further (R41). -/
def slotAfter : Option FadeSlot → Option FadeSlot
  | none => none
  | some f => if f.duration ≤ f.elapsed + 1 then none else some { f with elapsed := f.elapsed + 1 }

/-- A member's point after a millisecond of its slot: at the target and out of the slot at the end, else by the fade law (R43, R44). -/
def FadeSlot.pointAfter (f : FadeSlot) (m : Member) (q : Point) : Point :=
  if f.duration ≤ f.elapsed + 1 then { q with base := clampBase f.target, membership := none }
  else { q with base := clampBase (fadeBase m.start f.target (f.curve.shape (progress (f.elapsed + 1) f.duration))) }

theorem State.slot_advanceSlot (s : State) (k j : Nat) : (s.advanceSlot k).slot j = if j = k then slotAfter (s.slot k) else s.slot j := by
  rcases s.advanceSlot_cases k with ⟨free, e⟩ | ⟨f, used, ⟨over_, e⟩ | ⟨goes, e⟩⟩
  · rw [e, free]
    split
    · next same => rw [same, free, slotAfter]
    · rfl
  · rw [e, State.slot_completeSlot, used, slotAfter, if_pos over_]
  · have slots : ∀ x, (s.writeFade f x).slot j = s.slot j := fun x => congrArg (fun t => t.getD j none) (s.writeFade_slots f x)
    have below : k < Config.slots := by
      by_contra above
      rw [s.slot_of_le (Nat.le_of_not_lt above)] at used
      cases used
    rw [e, State.slot_setSlot, slots, used, slotAfter, if_neg (Nat.not_le_of_gt goes)]
    by_cases same : j = k
    · rw [if_pos ⟨same, same ▸ below⟩, if_pos same]
    · rw [if_neg fun h => same h.1, if_neg same]

theorem State.point_foldl_setBase_of_not_mem (ms : List Member) (v : Member → Int) (s : State) {p : Nat} (out : ∀ m ∈ ms, m.point ≠ p) :
    (ms.foldl (fun s m => s.setBase m.point (v m)) s).point p = s.point p := by
  induction ms generalizing s with
  | nil => rfl
  | cons m ms ih =>
    obtain ⟨here, later⟩ := List.forall_mem_cons.mp out
    rw [List.foldl_cons, ih _ later, State.point_setBase, if_neg fun h => here h.1.symm]

theorem State.point_foldl_setBase_of_mem {ms : List Member} (distinct : (ms.map (·.point)).Nodup) (v : Member → Int) (s : State)
    {m : Member} (inside : m ∈ ms) (below : m.point < Config.points) :
    (ms.foldl (fun s m => s.setBase m.point (v m)) s).point m.point = { s.point m.point with base := clampBase (v m) } := by
  induction ms generalizing s with
  | nil => cases inside
  | cons x ms ih =>
    obtain ⟨fresh, distinct⟩ := List.nodup_cons.mp distinct
    rcases List.mem_cons.mp inside with rfl | later
    · rw [List.foldl_cons, State.point_foldl_setBase_of_not_mem _ _ _ fun y hy e => fresh (List.mem_map.mpr ⟨y, hy, e⟩),
        State.point_setBase, if_pos ⟨rfl, below⟩]
    · have other : m.point ≠ x.point := fun e => fresh (List.mem_map.mpr ⟨m, later, e⟩)
      rw [List.foldl_cons, ih distinct _ later, State.point_setBase, if_neg fun h => other h.1]

theorem State.point_advanceSlot_of_not_held (s : State) {k p : Nat} (out : ¬ s.holds k p) : (s.advanceSlot k).point p = s.point p := by
  rcases Nat.lt_or_ge p Config.points with below | above
  · rcases s.advanceSlot_cases k with ⟨_, e⟩ | ⟨f, used, ⟨_, e⟩ | ⟨_, e⟩⟩
    · rw [e]
    · rw [e, State.point_completeSlot used below, if_neg fun held => out ⟨f, used, held⟩]
    · rw [e]
      exact State.point_foldl_setBase_of_not_mem f.members _ s fun m hm at_ => out ⟨f, used, m, hm, at_⟩
  · rw [State.point_of_le _ above, State.point_of_le _ above]

theorem State.point_advanceSlot_of_member {s : State} {k : Nat} {f : FadeSlot} (used : s.slot k = some f)
    (distinct : (f.members.map (·.point)).Nodup) {m : Member} (inside : m ∈ f.members) (below : m.point < Config.points) :
    (s.advanceSlot k).point m.point = f.pointAfter m (s.point m.point) := by
  rcases s.advanceSlot_cases k with ⟨free, _⟩ | ⟨g, used', ⟨over_, e⟩ | ⟨goes, e⟩⟩
  · rw [used] at free
    cases free
  · obtain rfl : f = g := Option.some.inj (used.symm.trans used')
    rw [e, State.point_completeSlot used below, if_pos ⟨m, inside, rfl⟩, FadeSlot.pointAfter, if_pos over_]
  · obtain rfl : f = g := Option.some.inj (used.symm.trans used')
    rw [e, FadeSlot.pointAfter, if_neg (by omega)]
    exact State.point_foldl_setBase_of_mem distinct _ s inside below

/-- A millisecond of the slots of a list. -/
def State.advanceEach (ks : List Nat) (s : State) : State := ks.foldl (fun s k => s.advanceSlot k) s

theorem State.advanceSlots_eq (s : State) : s.advanceSlots = s.advanceEach (List.range Config.slots) := rfl

theorem State.advanceEach_cons (k : Nat) (ks : List Nat) (s : State) : s.advanceEach (k :: ks) = (s.advanceSlot k).advanceEach ks := rfl

theorem State.slot_advanceEach {ks : List Nat} (distinct : ks.Nodup) (s : State) (j : Nat) :
    (s.advanceEach ks).slot j = if j ∈ ks then slotAfter (s.slot j) else s.slot j := by
  induction ks generalizing s with
  | nil => rfl
  | cons k ks ih =>
    obtain ⟨fresh, distinct⟩ := List.nodup_cons.mp distinct
    rw [State.advanceEach_cons, ih distinct, State.slot_advanceSlot]
    by_cases same : j = k
    · subst same
      rw [if_neg fresh, if_pos rfl, if_pos List.mem_cons_self]
    · simp only [List.mem_cons, same, false_or, if_false]

theorem State.holds_advanceSlot {s : State} {k j p : Nat} (other : j ≠ k) : (s.advanceSlot k).holds j p ↔ s.holds j p := by
  rw [State.holds, State.holds, State.slot_advanceSlot, if_neg other]

theorem State.point_advanceEach_of_not_held {ks : List Nat} (distinct : ks.Nodup) (s : State) {p : Nat}
    (out : ∀ k ∈ ks, ¬ s.holds k p) : (s.advanceEach ks).point p = s.point p := by
  induction ks generalizing s with
  | nil => rfl
  | cons k ks ih =>
    obtain ⟨fresh, distinct⟩ := List.nodup_cons.mp distinct
    obtain ⟨here, later⟩ := List.forall_mem_cons.mp out
    rw [State.advanceEach_cons, ih distinct, s.point_advanceSlot_of_not_held here]
    intro j hj
    rw [State.holds_advanceSlot (ne_of_mem_of_not_mem hj fresh)]
    exact later j hj

/-- Of a list of slots the one that holds a point moves it, if no other of them does. -/
theorem State.point_advanceEach_of_member {ks : List Nat} (distinctSlots : ks.Nodup) {s : State} {k : Nat} (named : k ∈ ks) {f : FadeSlot}
    (used : s.slot k = some f) (distinct : (f.members.map (·.point)).Nodup) {m : Member} (inside : m ∈ f.members)
    (below : m.point < Config.points) (alone : ∀ j ∈ ks, s.holds j m.point → j = k) :
    (s.advanceEach ks).point m.point = f.pointAfter m (s.point m.point) := by
  induction ks generalizing s with
  | nil => cases named
  | cons j ks ih =>
    obtain ⟨fresh, rest⟩ := List.nodup_cons.mp distinctSlots
    have held : ∀ i ∈ ks, (s.advanceSlot j).holds i m.point → i = k := fun i hi holds =>
      alone i (List.mem_cons_of_mem j hi) ((State.holds_advanceSlot (ne_of_mem_of_not_mem hi fresh)).mp holds)
    rw [State.advanceEach_cons]
    rcases List.mem_cons.mp named with same | later
    · subst same
      rw [State.point_advanceEach_of_not_held rest _ fun i hi holds => fresh (held i hi holds ▸ hi),
        State.point_advanceSlot_of_member used distinct inside below]
    · have other : k ≠ j := ne_of_mem_of_not_mem later fresh
      rw [ih rest later (by rw [State.slot_advanceSlot, if_neg other, used]) held,
        s.point_advanceSlot_of_not_held fun holds => other (alone j List.mem_cons_self holds).symm]

theorem State.slot_advanceSlots (s : State) (k : Nat) : s.advanceSlots.slot k = slotAfter (s.slot k) := by
  rw [State.advanceSlots_eq, State.slot_advanceEach List.nodup_range]
  split
  · rfl
  · next out =>
    rw [s.slot_of_le (by simpa using out)]
    rfl

theorem State.slot_below {s : State} {k : Nat} {f : FadeSlot} (used : s.slot k = some f) : k ∈ List.range Config.slots := by
  rw [List.mem_range]
  by_contra above
  rw [s.slot_of_le (Nat.le_of_not_lt above)] at used
  cases used

theorem FadesOk.point_advanceSlots_of_member {s : State} (ok : FadesOk s) {k : Nat} {f : FadeSlot} (used : s.slot k = some f)
    (distinct : (f.members.map (·.point)).Nodup) {m : Member} (inside : m ∈ f.members) (below : m.point < Config.points) :
    s.advanceSlots.point m.point = f.pointAfter m (s.point m.point) := by
  have member : (s.point m.point).membership = some k := (ok.membership_iff below k).mpr ⟨f, used, m, inside, rfl⟩
  refine State.point_advanceEach_of_member List.nodup_range (State.slot_below used) used distinct inside below fun j _ holds => ?_
  exact Option.some.inj (((ok.membership_iff below j).mpr holds).symm.trans member)

theorem FadesOk.point_advanceSlots_of_free {s : State} (ok : FadesOk s) {p : Nat} (free : (s.point p).membership = none) :
    s.advanceSlots.point p = s.point p := by
  rcases Nat.lt_or_ge p Config.points with below | above
  · refine State.point_advanceEach_of_not_held List.nodup_range s fun k _ holds => ?_
    rw [(ok.membership_iff below k).mpr holds] at free
    cases free
  · rw [State.point_of_le _ above, State.point_of_le _ above]

theorem State.advanceSlots_frame (s : State) : s.advanceSlots = { s with
    lanes := s.advanceSlots.lanes, points := s.advanceSlots.points, slots := s.advanceSlots.slots,
    runner := s.advanceSlots.runner } := by
  apply State.ext_fields <;> simp

/-- While no slot reaches its duration a millisecond of the slots tells no run anything. -/
theorem State.advanceSlots_quiet {s : State} (going : ∀ k f, s.slot k = some f → f.elapsed + 1 < f.duration) :
    s.advanceSlots.runner = s.runner := by
  rw [State.advanceSlots_eq]
  have distinct : (List.range Config.slots).Nodup := List.nodup_range
  generalize List.range Config.slots = ks at distinct
  suffices quiet : ∀ t : State, (∀ k ∈ ks, t.slot k = s.slot k) → (t.advanceEach ks).runner = t.runner from quiet s fun _ _ => rfl
  induction ks with
  | nil => exact fun _ _ => rfl
  | cons k ks ih =>
    intro t same
    obtain ⟨fresh, distinct⟩ := List.nodup_cons.mp distinct
    obtain ⟨here, later⟩ := List.forall_mem_cons.mp same
    have one : (t.advanceSlot k).runner = t.runner := by
      rcases t.advanceSlot_cases k with ⟨_, e⟩ | ⟨f, used, ⟨over_, _⟩ | ⟨_, e⟩⟩
      · rw [e]
      · exact absurd over_ (Nat.not_le_of_gt (going k f (here ▸ used)))
      · rw [e]
        exact t.writeFade_runner f _
    rw [State.advanceEach_cons, ih distinct _ fun j hj => ?_, one]
    rw [State.slot_advanceSlot, if_neg (ne_of_mem_of_not_mem hj fresh), later j hj]

/-- Settles O23: every slot is advanced once, and FadesOk says that no other slot moves its members. -/
theorem fadeAdvanceMovesEveryMember : Obligations.FadeAdvanceMovesEveryMember := by
  intro s ok distinct
  refine ⟨_, rfl, fun k f used => ⟨fun goes => ⟨?_, fun m inside below => ?_⟩, fun over_ => ⟨?_, fun m inside below => ?_⟩⟩,
    fun k free => ?_, fun p free => ok.point_advanceSlots_of_free free, s.advanceSlots_frame⟩
  · rw [State.slot_advanceSlots, used, slotAfter, if_neg (by omega)]
  · rw [ok.point_advanceSlots_of_member used (distinct k f used) inside below, FadeSlot.pointAfter, if_neg (by omega)]
    rfl
  · rw [State.slot_advanceSlots, used, slotAfter, if_pos over_]
  · rw [ok.point_advanceSlots_of_member used (distinct k f used) inside below, FadeSlot.pointAfter, if_pos over_]
    rfl
  · rw [State.slot_advanceSlots, free, slotAfter]

end Sys2Proof.Machine
end

section
/-! The millisecond of the internal time base: what it counts, what falls due in it, and the trigger lines over milliseconds. -/

namespace Sys2Proof.Machine

/-! ## The millisecond in two parts: what it counts, and what then falls due -/

/-- The clocks of a millisecond: the time base, the clock fault's length and the performance clock. -/
def State.clocked (s : State) : State :=
  { s with timeBase := s.timeBase + 1, audio := s.audio.tick, record := s.record.tickClock }

/-- Every count of a millisecond moved, before what falls due in it is taken. -/
def State.moved (s : State) : State := s.clocked.tickDelay.tickRuns.advanceSlots.tickLines.advanceRamps.tickCall

theorem State.tick_eq (s : State) : s.tick =
    (s.moved.takeDue ((s.runner.runs.filter Run.preWaitDue).map (·.cue)) ((s.runner.runs.filter Run.followDue).map (·.cue))).timeoutDue :=
  rfl

/-! ## The counts -/

/-- A state with other clocks and another record, every lane given some notices. -/
def State.beside (ks : List Notice) (b : Nat) (a : Audio) (r : Record) (s : State) : State :=
  { s with lanes := s.lanes.map (LaneState.notifyAll ks), timeBase := b, audio := a, record := r }

section
variable (ks : List Notice) (b : Nat) (a : Audio) (r : Record) (s : State)

theorem State.dropRun_beside (c : Nat) : (s.beside ks b a r).dropRun c = (s.dropRun c).beside ks b a r := by
  have lanes : (s.lanes.map (LaneState.notifyAll ks)).map (LaneState.notify .run) =
      (s.lanes.map (LaneState.notify .run)).map (LaneState.notifyAll ks) := by
    simp only [PerLane.map, LaneState.notifyAll_notify]
  unfold State.dropRun State.beside State.noticeAll
  exact congrArg (fun x => { s with
    lanes := x, timeBase := b, audio := a, record := r,
    runner := { s.runner with runs := s.runner.runs.filter fun r => r.cue != c } }) lanes

theorem State.checkCompletion_beside (c : Nat) : (s.beside ks b a r).checkCompletion c = (s.checkCompletion c).beside ks b a r := by
  have found : (s.beside ks b a r).run? c = s.run? c := rfl
  unfold State.checkCompletion
  rw [found]
  split
  · split
    · exact s.dropRun_beside ks b a r c
    · rfl
  · rfl

theorem State.reportFreed_beside (owner : Option Nat) :
    (s.beside ks b a r).reportFreed owner = (s.reportFreed owner).beside ks b a r := by
  cases owner with
  | none => rfl
  | some c => exact (s.onRun c Run.slotFreed).checkCompletion_beside ks b a r c

theorem State.onPoints_beside (ps : List Nat) (f : Point → Point) :
    (s.beside ks b a r).onPoints ps f = (s.onPoints ps f).beside ks b a r := by
  induction ps generalizing s with
  | nil => rfl
  | cons p ps ih => exact ih (s.onPoint p f)

theorem State.writeFade_beside (f : FadeSlot) (p : Nat) : (s.beside ks b a r).writeFade f p = (s.writeFade f p).beside ks b a r := by
  unfold State.writeFade
  induction f.members generalizing s with
  | nil => rfl
  | cons m ms ih => exact ih (s.setBase m.point _)

theorem State.completeSlot_beside (k : Nat) : (s.beside ks b a r).completeSlot k = (s.completeSlot k).beside ks b a r := by
  have read : (s.beside ks b a r).slot k = s.slot k := rfl
  unfold State.completeSlot
  rw [read]
  split
  · rfl
  · next f _ =>
    rw [State.completeMembers, State.onPoints_beside]
    exact ((s.completeMembers f).setSlot k none).reportFreed_beside ks b a r f.owner

theorem State.advanceSlot_beside (k : Nat) : (s.beside ks b a r).advanceSlot k = (s.advanceSlot k).beside ks b a r := by
  have read : (s.beside ks b a r).slot k = s.slot k := rfl
  unfold State.advanceSlot
  rw [read]
  split
  · rfl
  · dsimp only
    split
    · exact s.completeSlot_beside ks b a r k
    · rw [State.writeFade_beside]
      rfl

/-- A millisecond of the slots neither reads nor writes the clocks and the record. -/
theorem State.advanceSlots_beside : (s.beside ks b a r).advanceSlots = s.advanceSlots.beside ks b a r := by
  unfold State.advanceSlots
  induction List.range Config.slots generalizing s with
  | nil => rfl
  | cons k js ih =>
    rw [List.foldl_cons, List.foldl_cons, State.advanceSlot_beside, ih]

end

/-- The arming delay ends at this millisecond (R144). -/
def Record.startsNow (r : Record) : Prop := r.state = .armed ∧ r.delayRemaining ≤ 1 ∧ ∃ d, r.startMode = some (.delay d)

theorem Record.awaitsDelay_iff (r : Record) : r.awaitsDelay = true ↔ r.state = .armed ∧ ∃ d, r.startMode = some (.delay d) := by
  obtain ⟨state, mode⟩ := r
  rcases mode with _ | _ | d <;> simp [Record.awaitsDelay]

theorem Record.tickClock_of_armed {r : Record} (armed : r.state = .armed) : r.tickClock = r := by
  rw [Record.tickClock, armed]
  rfl

section
variable {s : State}

theorem State.awaitsDelay_clocked : s.clocked.record.awaitsDelay = s.record.awaitsDelay := by
  change s.record.tickClock.awaitsDelay = _
  unfold Record.tickClock
  split <;> rfl

theorem State.tickDelay_of_starts (starts : s.record.startsNow) :
    s.clocked.tickDelay = s.clocked.startPerformance .engine none := by
  obtain ⟨armed, short, waits⟩ := starts
  have same : s.clocked.record = s.record := Record.tickClock_of_armed armed
  have awaits : s.clocked.record.awaitsDelay = true := same ▸ s.record.awaitsDelay_iff.mpr ⟨armed, waits⟩
  rw [State.tickDelay, if_pos awaits, if_pos (same ▸ short)]

theorem State.tickDelay_lanes_of_not_starts (later : ¬ s.record.startsNow) : s.clocked.tickDelay.lanes = s.lanes := by
  unfold State.tickDelay
  split
  · next awaits =>
    obtain ⟨armed, waits⟩ := s.record.awaitsDelay_iff.mp (State.awaitsDelay_clocked.symm.trans awaits)
    have same : s.clocked.record = s.record := Record.tickClock_of_armed armed
    rw [same, if_neg fun short => later ⟨armed, short, waits⟩]
    rfl
  · rfl

theorem State.moved_record : s.moved.record = s.clocked.tickDelay.record := by
  simp [State.moved, State.tickRuns, State.tickLines]

theorem State.moved_record_of_starts {d : Nat} (armed : s.record.state = .armed) (mode : s.record.startMode = some (.delay d))
    (short : s.record.delayRemaining ≤ 1) : s.moved.record =
      { s.record with state := .running, clock := 0, delayRemaining := 0 }.hand .engine none none (.performanceStart (.delay d)) := by
  have same : s.clocked.record = s.record := Record.tickClock_of_armed armed
  rw [State.moved_record, State.tickDelay_of_starts ⟨armed, short, d, mode⟩, State.startPerformance_record (same ▸ mode), same]

theorem State.moved_record_of_waits {d : Nat} (armed : s.record.state = .armed) (mode : s.record.startMode = some (.delay d))
    (long : ¬ s.record.delayRemaining ≤ 1) : s.moved.record = { s.record with delayRemaining := s.record.delayRemaining - 1 } := by
  have same : s.clocked.record = s.record := Record.tickClock_of_armed armed
  have awaits : s.record.awaitsDelay = true := s.record.awaitsDelay_iff.mpr ⟨armed, d, mode⟩
  rw [State.moved_record, State.tickDelay, same, if_pos awaits, if_neg long]

theorem State.moved_record_of_no_delay (no : s.record.awaitsDelay = false) : s.moved.record = s.record.tickClock := by
  rw [State.moved_record, State.tickDelay, State.awaitsDelay_clocked, no]
  rfl

end

/-- The clocks and the arming delay of a millisecond change no more than the clocks, the record and the lanes' notices. -/
theorem State.tickDelay_clocked_eq_beside (s : State) :
    ∃ ks, (s.record.startsNow → ks = [.performance]) ∧ (¬ s.record.startsNow → ks = []) ∧
      s.clocked.tickDelay = s.beside ks (s.timeBase + 1) s.audio.tick s.clocked.tickDelay.record := by
  by_cases starts : s.record.startsNow
  · refine ⟨[.performance], fun _ => rfl, fun later => absurd starts later, ?_⟩
    rw [State.tickDelay_of_starts starts]
    rfl
  · refine ⟨[], fun now => absurd now starts, fun _ => rfl, ?_⟩
    have lanes : s.clocked.tickDelay.lanes = s.lanes.map (LaneState.notifyAll []) := State.tickDelay_lanes_of_not_starts starts
    apply State.ext_fields <;> simp [lanes, State.beside] <;> rfl

theorem Audio.tick_eq (c : Audio) : c.tick = { c with
    faultMs := if c.clock = .good then c.faultMs else min 65535 (c.faultMs + 1) } := by
  unfold Audio.tick Audio.faulted
  by_cases good : c.clock = .good
  · rw [good]
    exact congrArg (fun x => { c with clock := x }) good
  · simp [good, bump, Config.max16]

theorem Record.startsNow_awaitsCurtain {r : Record} {d : Nat} (mode : r.startMode = some (.delay d)) : r.awaitsCurtain = false := by
  simp [Record.awaitsCurtain, mode]

/-- What falls due in a millisecond hands events to the record, unless a curtain cue's GO starts a performance. -/
theorem State.tick_steady (s : State) : Steady s.moved s.tick :=
  (s.moved.takeDue_steady ..).trans (State.timeoutDue_steady _)

theorem State.tick_record_of_idle {s : State} {r : Record} (moved : s.moved.record = r) (noCurtain : r.awaitsCurtain = false)
    (idle : r.state.inShow = false) : s.tick.record = r := by
  subst moved
  exact (s.tick_steady.handed noCurtain).idle idle

theorem State.tick_calls_of_more {s : State} {x : LiveCall} (live : s.calls.live = some x) (more : 1 < x.limit) :
    s.tick.calls = { s.calls with live := some x.tick } := by
  have calls : ∀ ps fs, (s.moved.takeDue ps fs).calls = { s.calls with live := some x.tick } := fun ps fs => by
    have moved : s.moved.calls = { s.calls with live := s.calls.live.map LiveCall.tick } := by
      simp [State.moved, State.tickCall, State.tickLines, State.tickRuns, State.clocked]
    rw [State.takeDue_calls, moved, live]
    rfl
  rw [State.tick_eq, State.timeoutDue, calls]
  have stays : ¬ x.tick.limit = 0 := by
    change ¬ x.limit - 1 = 0
    omega
  simp only [if_neg stays, calls]

/-- Settles O2: the counts of the millisecond, and what falls due in it keeps them. -/
theorem idleStepIsOneMillisecond : Obligations.IdleStepIsOneMillisecond := by
  intro s idle
  refine ⟨_, step_nil s idle, ?time, fun playing => ?clock, fun still => ?still, fun d armed mode long => ?delay,
    fun x live more => State.tick_calls_of_more live more, ?audio, s.tick_inputMap, s.tick_store, s.tick_watch, s.tick_staging,
    s.tick_causes, s.tick_pending.trans idle⟩
  case time => simp [State.tick]
  case audio =>
    rw [← Audio.tick_eq]
    simp [State.tick, State.tickLines, State.tickRuns]
  case clock =>
    have noDelay : s.record.awaitsDelay = false := by
      rcases playing with e | e <;> simp [Record.awaitsDelay, e]
    have record : s.moved.record = s.record.tickClock := State.moved_record_of_no_delay noDelay
    have noCurtain : s.moved.record.awaitsCurtain = false := by
      rw [record, Record.tickClock_eq]
      rcases playing with e | e <;> simp [Record.awaitsCurtain, e]
    rw [(s.tick_steady.handed noCurtain).clock, record, Record.tickClock_eq]
    exact if_pos playing
  case still =>
    have noDelay : s.record.awaitsDelay = false := by
      rcases still with e | e <;> simp [Record.awaitsDelay, e]
    have quiet : s.record.state.inShow = false := by rcases still with e | e <;> rw [e] <;> rfl
    refine State.tick_record_of_idle ?_ ?_ quiet
    · rw [State.moved_record_of_no_delay noDelay, Record.tickClock, quiet]
      rfl
    · rcases still with e | e <;> simp [Record.awaitsCurtain, e]
  case delay =>
    refine State.tick_record_of_idle (State.moved_record_of_waits armed mode (Nat.not_le_of_gt long)) ?_ ?_
    · exact Record.startsNow_awaitsCurtain (r := { s.record with delayRemaining := _ }) mode
    · change s.record.state.inShow = false
      rw [armed]
      rfl

/-! ## What falls due, as the commands for it -/

theorem exec_preWaitEnd (c : Nat) (s : State) : exec (.preWaitEnd c) s = .next (s.dispatchDue c) := by
  cases found : s.run? c with
  | none => simp only [exec, execPreWaitEnd, State.dispatchDue, found]
  | some r => simp only [exec, execPreWaitEnd, State.dispatchDue, found]

theorem State.dispatchDue_shrinks (s : State) (c : Nat) : RunsShrink s (s.dispatchDue c) := by
  unfold State.dispatchDue
  split
  · exact .refl s
  · split
    · exact s.dispatch_shrinks c
    · exact .refl s

theorem takes_preWaitEnd (cs : List Nat) (s : State) : Takes (cs.map Instr.preWaitEnd) s (cs.foldl State.dispatchDue s) := by
  induction cs generalizing s with
  | nil => rfl
  | cons c cs ih => exact ⟨_, exec_preWaitEnd c s, ih _⟩

theorem takes_followExpiry (cs : List Nat) (s : State) :
    Takes (cs.map Instr.followExpiry) s (cs.foldl (fun s c => (s.expireFollow c).1) s) := by
  induction cs generalizing s with
  | nil => rfl
  | cons c cs ih => exact ⟨_, rfl, ih _⟩

theorem State.voidFollow_shrinks (s : State) (c : Nat) {f : Run → Run} (same : ∀ r, (f r).cue = r.cue) (d : Detail) :
    RunsShrink s ((((s.onRun c f).report .follow (some c) none d).checkCompletion c).noticeAll .run) := by
  have reported : RunsShrink s ((s.onRun c f).report .follow (some c) none d) := (s.onRun_shrinks c same).trans (.of_runner rfl)
  exact (reported.trans (State.checkCompletion_shrinks _ c)).trans (.of_runner rfl)

/-- With standby END a follow that expires is void (R94). -/
theorem State.expireFollow_of_end {s : State} (ended : s.runner.standby = none) (c : Nat) :
    (s.expireFollow c).2 = none ∧ (s.expireFollow c).1.runner.standby = none := by
  have none_ : s.standbyCue = none := by rw [State.standbyCue, ended]; rfl
  unfold State.expireFollow
  split
  · exact ⟨rfl, ended⟩
  · split
    · rw [none_]
      refine ⟨rfl, ?_⟩
      have voided := s.voidFollow_shrinks c (f := fun r => { r with followState := .none, followRemaining := 0 }) (fun _ => rfl)
        (.followVoid (s.store.nextAfter c))
      exact voided.standby.trans ended
    · exact ⟨rfl, ended⟩

/-- With standby END, or of no more than one run, runs whose follow expires are all taken. -/
theorem takeRuns_expireFollow {cs : List Nat} {s : State} (few : cs.length ≤ 1 ∨ s.runner.standby = none) :
    takeRuns (fun c s => s.expireFollow c) cs s = cs.foldl (fun s c => (s.expireFollow c).1) s := by
  rcases few with short | ended
  · match cs, short with
    | [], _ => rfl
    | [c], _ => rfl
  · unfold takeRuns
    induction cs generalizing s with
    | nil => rfl
    | cons c cs ih =>
      obtain ⟨void, still⟩ := State.expireFollow_of_end ended c
      rw [List.foldl_cons, List.foldl_cons, ← ih still]
      simp [void]

theorem exec_callTimeout_of_live {s : State} {x : LiveCall} (live : s.calls.live = some x) :
    exec .callTimeout s = .next (s.endAndGrant .timeout) := by
  rw [exec, execCallTimeout, live]

theorem Run.preWaitDue_eq : Run.preWaitDue = fun r => decide (r.state = .preWait ∧ r.preWait ≤ 1) := by
  funext r
  rw [Run.preWaitDue, Bool.decide_and]
  rfl

theorem Run.followDue_eq : Run.followDue = fun r => decide (r.followState = .timing ∧ r.followRemaining ≤ 1) := by
  funext r
  rw [Run.followDue, Bool.decide_and]
  rfl

theorem Zone.tick_route (z : Zone) : z.tick.route = z.route ∧ z.tick.targeted = z.targeted := by
  unfold Zone.tick Zone.endRamp
  split
  · exact ⟨rfl, rfl⟩
  · split <;> exact ⟨rfl, rfl⟩

/-- The live call's limit over at this millisecond is CALL_TIMEOUT (R119). -/
theorem takes_timeout {s t : State} (calls : t.calls.live = s.calls.live.map LiveCall.tick) :
    Takes (match s.calls.live with
      | none => []
      | some x => if x.limit ≤ 1 then [Instr.callTimeout] else []) t t.timeoutDue := by
  cases live : s.calls.live with
  | none =>
    rw [live] at calls
    have stays : t.timeoutDue = t := by rw [State.timeoutDue, calls]; rfl
    exact stays.symm
  | some x =>
    rw [live] at calls
    have due : t.timeoutDue = if x.limit - 1 = 0 then t.endAndGrant .timeout else t := by rw [State.timeoutDue, calls]; rfl
    dsimp only
    split
    · next short =>
      rw [due, if_pos (by omega)]
      exact ⟨_, exec_callTimeout_of_live calls, rfl⟩
    · next long =>
      rw [due, if_neg (by omega)]
      rfl

theorem PerLane.map_notifyAll_nil (v : PerLane LaneState) : v.map (LaneState.notifyAll []) = v := rfl

theorem LineState.getD_mapIdx_tick {n : Nat} (ls : Table LineState n) (j : Nat) :
    (ls.mapIdx fun _ x => x.tick).getD j .idle = (ls.getD j .idle).tick := by
  rcases Nat.lt_or_ge j n with below | above
  · exact Table.getD_mapIdx _ _ _ _ _ below
  · rw [Table.getD_of_le _ _ _ above, Table.getD_of_le _ _ _ above]
    rfl

section
variable {s : State} {ks : List Notice} (beside : s.clocked.tickDelay = s.beside ks (s.timeBase + 1) s.audio.tick s.clocked.tickDelay.record)
include beside

/-- The counts of a millisecond: the slots from the runs' counts, and beside them the clocks, the lines, the ducks and the call. -/
theorem State.moved_eq : s.moved = ((s.tickRuns.advanceSlots.beside ks (s.timeBase + 1) s.audio.tick
    s.clocked.tickDelay.record).tickLines.advanceRamps).tickCall := by
  rw [← State.advanceSlots_beside, State.moved, beside]
  rfl

theorem State.moved_runner : s.moved.runner = { s.runner with
    runs := s.tickRuns.advanceSlots.runner.runs, lines := s.runner.lines.mapIdx fun _ x => LineState.tick x } := by
  have alone := s.tickRuns.advanceSlots_runsAlone.runner
  rw [State.moved_eq beside]
  generalize s.tickRuns.advanceSlots = w at alone ⊢
  change { w.runner with lines := w.runner.lines.mapIdx fun _ x => LineState.tick x } = _
  rw [alone]
  rfl

theorem State.moved_lanes : s.moved.lanes = s.tickRuns.advanceSlots.lanes.map (LaneState.notifyAll ks) := by
  rw [State.moved_eq beside]
  generalize s.tickRuns.advanceSlots = w
  rfl

theorem State.moved_points_slots :
    s.moved.points = s.tickRuns.advanceSlots.points ∧ s.moved.slots = s.tickRuns.advanceSlots.slots := by
  rw [State.moved_eq beside]
  generalize s.tickRuns.advanceSlots = w
  exact ⟨rfl, rfl⟩

end

theorem State.moved_zones (s : State) : s.moved.zones = s.advanceRamps.zones := by
  have zones : s.clocked.tickDelay.tickRuns.advanceSlots.zones = s.zones := by simp [State.tickRuns, State.clocked]
  unfold State.moved State.tickCall State.advanceRamps State.tickLines
  rw [zones]

theorem State.zone_moved (s : State) (z : Nat) : s.moved.zone z = (s.zone z).tick := by
  rw [← s.zone_advanceRamps, State.zone, State.moved_zones]
  rfl

theorem State.moved_calls (s : State) : s.moved.calls = { s.calls with live := s.calls.live.map LiveCall.tick } := by
  simp [State.moved, State.tickCall, State.tickLines, State.tickRuns, State.clocked]

theorem State.moved_record_eq {s : State} (later : ¬ s.record.startsNow) : s.moved.record =
    match s.record.state, s.record.startMode with
    | .running, _ => { s.record with clock := min 99999999 (s.record.clock + 1) }
    | .interval, _ => { s.record with clock := min 99999999 (s.record.clock + 1) }
    | .armed, some (.delay _) => { s.record with delayRemaining := s.record.delayRemaining - 1 }
    | _, _ => s.record := by
  by_cases waits : s.record.awaitsDelay = true
  · obtain ⟨armed, d, mode⟩ := s.record.awaitsDelay_iff.mp waits
    rw [State.moved_record_of_waits armed mode fun short => later ⟨armed, short, d, mode⟩, armed, mode]
  · rw [State.moved_record_of_no_delay (by simpa using waits), Record.tickClock]
    cases state : s.record.state
    case armed =>
      cases mode : s.record.startMode with
      | none => rfl
      | some m =>
        cases m with
        | curtain => rfl
        | delay d => exact absurd (s.record.awaitsDelay_iff.mpr ⟨state, d, mode⟩) waits
    case running | interval => exact congrArg (fun x => ({ s.record with state := x, clock := bump Config.maxClock s.record.clock } : Record)) state.symm
    all_goals rfl

/-- Settles O3: the counts of the millisecond, whose fades neither read nor write the clocks, and then what falls due, which are the
commands for it in order. -/
theorem millisecondTakesWhatFallsDue : Obligations.MillisecondTakesWhatFallsDue := by
  intro s idle
  dsimp only
  rw [← Run.preWaitDue_eq, ← Run.followDue_eq]
  intro few
  obtain ⟨ks, now, later, beside⟩ := s.tickDelay_clocked_eq_beside
  have lanes := State.moved_lanes beside
  obtain ⟨points, slots⟩ := State.moved_points_slots beside
  refine ⟨_, s.moved, s.tickRuns.advanceSlots, step_nil s idle, ?takes, ?time,
    rfl, points, slots, by rw [State.moved_runner beside], fun starts m => ?noticed, fun waits => ?silent, fun going => ?quiet, ?ramps,
    by rw [State.moved_runner beside], fun n => ?lines, s.moved_calls, ?audio,
    fun d armed mode short => State.moved_record_of_starts armed mode short,
    fun waits => State.moved_record_eq waits, fun z => by rw [State.zone_moved]; exact (s.zone z).tick_route, ?frame⟩
  case takes =>
    refine (Takes_append _ _ _ _).mpr ⟨_, (Takes_append _ _ _ _).mpr ⟨_, takes_preWaitEnd _ _, takes_followExpiry _ _⟩, ?_⟩
    have standby : (((s.runner.runs.filter Run.preWaitDue).map (·.cue)).foldl State.dispatchDue s.moved).runner.standby =
        s.runner.standby := by
      rw [(RunsShrink.foldl (fun s c => s.dispatchDue_shrinks c) _ _).standby, State.moved_runner beside]
    rw [← takeRuns_expireFollow (standby ▸ few)]
    exact takes_timeout (by rw [← State.takeDue, State.takeDue_calls, s.moved_calls])
  case time => simp [State.moved, State.tickRuns, State.tickLines, State.clocked]
  case noticed => rw [lanes, PerLane.get_map, now starts]
  case silent =>
    rw [lanes, later waits, PerLane.map_notifyAll_nil]
  case quiet =>
    rw [State.moved_runner beside, State.advanceSlots_quiet (s := s.tickRuns) going]
    rfl
  case ramps =>
    rw [State.moved_zones]
    rfl
  case lines =>
    rw [State.line, State.moved_runner beside]
    exact LineState.getD_mapIdx_tick s.runner.lines n
  case audio =>
    rw [← Audio.tick_eq]
    simp [State.moved, State.tickRuns, State.tickLines, State.clocked]
  case frame => 
    apply State.ext_fields <;> simp [State.moved, State.tickRuns, State.tickLines, State.clocked]

/-! ## Trigger lines over milliseconds (R100, R101) -/

namespace LineState

theorem tick_iterate_pulse {w k : Nat} (within : k < w) : tick^[k] (.pulse w) = .pulse (w - k) := by
  induction k with
  | zero => rfl
  | succ k ih =>
    rw [Function.iterate_succ_apply', ih (by omega), tick, if_neg (by omega)]
    rfl

theorem tick_iterate_pulse_end {w : Nat} (some_ : 1 ≤ w) : tick^[w] (.pulse w) = .idle := by
  obtain ⟨k, rfl⟩ : ∃ k, w = k + 1 := ⟨w - 1, by omega⟩
  rw [Function.iterate_succ_apply', tick_iterate_pulse (Nat.lt_succ_self k), tick, if_pos (by omega)]

section
variable (on : Bool) (n t : Nat)

theorem tick_iterate_phase {r k : Nat} (within : k < r) : tick^[k] (.repeating on r n t) = .repeating on (r - k) n t := by
  induction k with
  | zero => rfl
  | succ k ih =>
    rw [Function.iterate_succ_apply', ih (by omega), tick, if_neg (by omega)]
    rfl

theorem tick_iterate_phase_end {r : Nat} (some_ : 1 ≤ r) : tick^[r] (.repeating on r n t) = phaseEnd (.repeating on r n t) := by
  obtain ⟨k, rfl⟩ : ∃ k, r = k + 1 := ⟨r - 1, by omega⟩
  rw [Function.iterate_succ_apply', tick_iterate_phase on n t (Nat.lt_succ_self k), tick, if_pos (by omega)]
  cases on <;> rfl

end

section
variable {p : Nat} (two : 2 ≤ p) (n : Nat)
include two

theorem tick_iterate_half : tick^[p / 2] (.repeating true (p / 2) n p) = .repeating false (p - p / 2) n p :=
  tick_iterate_phase_end true n p (by omega)

theorem tick_iterate_turn :
    tick^[p] (.repeating true (p / 2) n p) = if n ≤ 1 then .idle else .repeating true (p / 2) (n - 1) p := by
  have halves : p = (p - p / 2) + p / 2 := by omega
  rw [show tick^[p] = tick^[(p - p / 2) + p / 2] from congrArg (fun k => tick^[k]) halves, Function.iterate_add_apply,
    tick_iterate_half two, tick_iterate_phase_end false n p (by omega)]
  rfl

/-- Within a turn the line is driven in the first half of the period. -/
theorem driven_within_turn {k : Nat} (within : k < p) :
    (tick^[k] (.repeating true (p / 2) n p)).driven = decide (k < p / 2) := by
  by_cases first : k < p / 2
  · rw [tick_iterate_phase true n p first, decide_eq_true first]
    rfl
  · have later : k = (k - p / 2) + p / 2 := by omega
    rw [later, Function.iterate_add_apply, tick_iterate_half two, tick_iterate_phase false n p (by omega),
      decide_eq_false (by omega)]
    rfl

theorem tick_iterate_repeating (k : Nat) :
    (k < (n + 1) * p → (tick^[k] (.repeating true (p / 2) (n + 1) p)).driven = decide (k % p < p / 2)) ∧
      tick^[(n + 1) * p] (.repeating true (p / 2) (n + 1) p) = .idle := by
  induction n generalizing k with
  | zero =>
    rw [Nat.zero_add, Nat.one_mul]
    refine ⟨fun within => ?_, tick_iterate_turn two 1⟩
    rw [driven_within_turn two 1 within, Nat.mod_eq_of_lt within]
  | succ n ih =>
    have turn : tick^[p] (.repeating true (p / 2) (n + 1 + 1) p) = .repeating true (p / 2) (n + 1) p := by
      rw [tick_iterate_turn two, if_neg (by omega), Nat.add_sub_cancel]
    refine ⟨fun within => ?_, ?_⟩
    · by_cases first : k < p
      · rw [driven_within_turn two _ first, Nat.mod_eq_of_lt first]
      · have later : k = (k - p) + p := by omega
        have rest : k - p < (n + 1) * p := by
          rw [Nat.add_one_mul] at within
          omega
        rw [later, Function.iterate_add_apply, turn, (ih (k - p)).1 rest, Nat.add_mod_right]
    · rw [Nat.add_one_mul (n + 1), Function.iterate_add_apply, turn, (ih 0).2]

end

end LineState

theorem State.setLine_read {s : State} {n : Nat} (below : n < 16) (v : LineState) (k : Nat) :
    (s.setLine n v).line k = if k = n then v else s.line k := by
  rw [State.line_setLine]
  by_cases same : k = n
  · rw [if_pos ⟨same, same ▸ below⟩, if_pos same]
  · rw [if_neg fun h => same h.1, if_neg same]

/-- With no run in the list a millisecond moves every line and nothing falls due that sets one. -/
theorem State.line_tick_of_no_runs {s : State} (empty : s.runner.runs = []) (n : Nat) : s.tick.line n = (s.line n).tick := by
  obtain ⟨ks, _, _, beside⟩ := s.tickDelay_clocked_eq_beside
  have taken : s.tick = s.moved.timeoutDue := by
    rw [State.tick_eq, empty]
    rfl
  rw [taken, State.line, State.timeoutDue_runner, State.moved_runner beside]
  exact LineState.getD_mapIdx_tick s.runner.lines n

/-- Settles O42. -/
theorem triggerLinesPulseAndRepeat : Obligations.TriggerLinesPulseAndRepeat := by
  refine ⟨fun s n below => ⟨fun w pulse => ?_, fun rem left p phase => ?_, fun rem left p phase => ?_⟩,
    fun w k => ⟨LineState.tick_iterate_pulse, LineState.tick_iterate_pulse_end⟩, fun p left k two some_ => ?_,
    fun s idle empty => ⟨_, step_nil s idle, State.line_tick_of_no_runs empty⟩, fun s n => ?_⟩
  · exact ⟨_, by rw [exec, execPulseEnd, pulse, LineState.pulseEnd], State.setLine_read below _, rfl⟩
  · exact ⟨_, by rw [exec, execRepeatPhaseEnd, phase, LineState.phaseEnd], State.setLine_read below _, rfl⟩
  · refine ⟨_, by rw [exec, execRepeatPhaseEnd, phase], fun k => ?_, rfl⟩
    rw [State.setLine_read below, LineState.phaseEnd]
    split
    · by_cases last : left ≤ 1
      · rw [if_pos last, if_neg (by omega)]
      · rw [if_neg last, if_pos (by omega)]
    · rfl
  · obtain ⟨n, rfl⟩ : ∃ n, left = n + 1 := ⟨left - 1, by omega⟩
    exact LineState.tick_iterate_repeating two n k
  · unfold State.lineHigh
    cases s.store.triggerSetup.polarity.getD n .activeHigh <;> rfl

end Sys2Proof.Machine
end

section
/-! What RUN STATUS, TRIGGER STATUS, ZONE STATUS and CALL STATUS report (5.9, 6.6). -/

namespace Sys2Proof.Machine

theorem lastGoBytes_eq (g : Option LastGo) : lastGoBytes g = match g with
    | none => 0 :: (be 3 0 ++ be 1 0 ++ be 4 0)
    | some g => 1 :: (be 3 g.cue ++ be 1 g.origin.code ++ be 4 g.showTime) := by
  cases g <;> rfl

theorem optBytes_sinceBeat (s : State) : optBytes 3 s.sinceBeat = match s.runner.lastBeat with
    | none => 0 :: be 3 0
    | some b => 1 :: be 3 (min 65535 (s.timeBase - b)) := by
  unfold State.sinceBeat
  cases s.runner.lastBeat <;> rfl

theorem LineState.chars_eq (x : LineState) : x.chars = match x with
    | .idle => [1, 0]
    | .active => [2, 1]
    | .pulse rem => 3 :: (be 3 rem ++ [1])
    | .repeating on rem left _ => 4 :: (be 1 (if on then 1 else 2) ++ be 3 rem ++ be 1 left ++ [flag on]) := by
  cases x <;> rfl

theorem rampBytes_eq (r : Option Ramp) : rampBytes r = match r with
    | none => 1 :: (signed 0 ++ be 3 0 ++ be 3 0)
    | some r => (match r.kind with | .attack => 2 | .release => 3) :: (signed r.target ++ be 3 r.time ++ be 3 r.elapsed) := by
  cases r with
  | none => rfl
  | some r =>
    obtain ⟨kind, start, target, time, elapsed⟩ := r
    cases kind with
    | attack => exact congrArg (· ++ (signed target ++ be 3 time ++ be 3 elapsed)) (rfl : be 1 2 = [2])
    | release => exact congrArg (· ++ (signed target ++ be 3 time ++ be 3 elapsed)) (rfl : be 1 3 = [3])

theorem liveBytes_eq (x : Option LiveCall) : liveBytes x = match x with
    | none => 0 :: List.replicate 15 0
    | some x => 1 :: (be 1 (laneCode x.call.lane) ++ be 2 x.call.arrival ++ be 1 x.call.cls.code
        ++ be 4 x.call.zones.toNat ++ signed x.call.level ++ be 3 x.limit ++ be 2 (min 65535 (x.timeLive / 1000))) := by
  cases x <;> rfl

theorem grantOrder_eq (cs : List Call) :
    grantOrder cs = [CallClass.showStop, .artist, .general].flatMap fun k => cs.filter fun c => c.cls == k := by
  simp [grantOrder]

section
variable (l : Lane) (tag : Byte) {first count : Nat} (s : State)

theorem exec_runStatus_outOfRange (above : 15 < first) :
    exec (.runStatus l tag first) s = .next (s.answer (.runStatus l tag first) .outOfRange []) := if_pos above

theorem exec_runStatus_served (inside : first ≤ 15) :
    exec (.runStatus l tag first) s = .next (s.answer (.runStatus l tag first) .ok
      (cueBytes s.runner.standby ++ lastGoBytes s.runner.lastGo ++ be 2 s.runner.beatCounter ++ optBytes 3 s.sinceBeat
        ++ be 1 s.runner.runs.length ++ be 1 ((s.runner.runs.drop first).take 8).length
        ++ ((s.runner.runs.drop first).take 8).flatMap Run.chars)) := if_neg (Nat.not_lt.mpr inside)

theorem exec_zoneStatus_notFound (above : 32 ≤ first) :
    exec (.zoneStatus l tag first count) s = .next (s.answer (.zoneStatus l tag first count) .notFound []) := if_pos above

theorem exec_zoneStatus_outOfRange (below : first < 32) (out : count = 0 ∨ 16 < count) :
    exec (.zoneStatus l tag first count) s = .next (s.answer (.zoneStatus l tag first count) .outOfRange []) :=
  (if_neg (Nat.not_le.mpr below)).trans (if_pos (count_outOfRange out))

theorem exec_zoneStatus_served (below : first < 32) (low : 1 ≤ count) (high : count ≤ 16) :
    exec (.zoneStatus l tag first count) s = .next (s.answer (.zoneStatus l tag first count) .ok
      (be 1 (runOf 32 first count).length ++ (runOf 32 first count).flatMap s.zoneEntry)) :=
  (if_neg (Nat.not_le.mpr below)).trans (if_neg (count_inRange low high))

end

/-- Settles O43: each field of the replies is the one the rules name. -/
theorem runnerAndRelayReadsReportTheState : Obligations.RunnerAndRelayReadsReportTheState := by
  intro l tag first count s
  refine ⟨fun above => .of_answer rfl (exec_runStatus_outOfRange l tag s above), fun inside => ?runs, ?lines,
    fun above => .of_answer rfl (exec_zoneStatus_notFound l tag s above),
    fun below out => .of_answer rfl (exec_zoneStatus_outOfRange l tag s below out), fun below low high => ?zones, ?calls⟩
  case runs =>
    refine .of_answer rfl ((exec_runStatus_served l tag s inside).trans ?_)
    rw [lastGoBytes_eq, optBytes_sinceBeat, List.length_take, List.length_drop]
    rfl
  case lines =>
    refine .of_answer rfl ?_
    rw [exec, execTriggerStatus, Table.toList_eq_range s.runner.lines .idle, List.flatMap_map]
    simp only [LineState.chars_eq]
    rfl
  case zones =>
    refine .of_answer rfl ((exec_zoneStatus_served l tag s below low high).trans ?_)
    rw [length_runOf below.le, runOf_eq below.le, List.flatMap_map]
    unfold State.zoneEntry
    simp only [rampBytes_eq]
    rfl
  case calls =>
    refine .of_answer rfl ?_
    rw [exec, execCallStatus, liveBytes_eq, grantOrder_eq]
    rfl

end Sys2Proof.Machine
end

section
/-! What ALARM POLL, RECORD STATUS, READ LOG, LANE STATUS, RESET CAUSES and IDENTITY report (7.8, 8.8, 10.1, 10.8). -/

namespace Sys2Proof.Machine

/-! ## The log entry (10.7) -/

/-- A log entry's characters from the numbers of its kind, its lane and its detail. -/
def LogEntry.charsOf (e : LogEntry) (kind lane detail : Nat) : List Byte :=
  be 4 e.seq ++ be 4 (2 ^ 27 * kind + e.time)
    ++ be 1 (lane + (if e.cue.isSome then 2 ^ 3 else 0) + (if e.zone.isSome then 2 ^ 4 else 0))
    ++ be 3 (match e.cue, e.zone with | some c, _ => c | none, some z => z | none, none => 0) ++ be 4 detail

theorem LogEntry.chars_eq (e : LogEntry) : e.chars = e.charsOf e.detail.kindNumber e.lane.code e.detail.value := by
  obtain ⟨seq, time, lane, cue, zone, detail⟩ := e
  unfold LogEntry.chars LogEntry.charsOf
  rw [fieldAt, Nat.mul_comm]
  cases cue <;> cases zone <;> rfl

theorem fieldAt_eq (k n : Nat) : fieldAt k n = 2 ^ k * n := Nat.mul_comm ..

/-! ## The entries a READ LOG carries (R157) -/

/-- Of entries numbered without a gap from `b` on, those from `k` on are what is left after the first `k - b`. -/
theorem filter_seq {log : List LogEntry} {b : Nat} (numbered : ∀ i e, log[i]? = some e → e.seq = b + i) (k : Nat) :
    (log.filter fun e => decide (k ≤ e.seq)) = log.drop (k - b) := by
  induction log generalizing b with
  | nil => simp
  | cons e log ih =>
    have first : e.seq = b := numbered 0 e rfl
    have later : ∀ i x, log[i]? = some x → x.seq = (b + 1) + i := fun i x h => by
      rw [numbered (i + 1) x h]
      omega
    by_cases here : k ≤ b
    · rw [List.filter_cons_of_pos (by simpa [first] using here), ih later, Nat.sub_eq_zero_of_le here,
        Nat.sub_eq_zero_of_le (by omega)]
      rfl
    · obtain ⟨d, rfl⟩ : ∃ d, k = b + 1 + d := ⟨k - (b + 1), by omega⟩
      rw [List.filter_cons_of_neg (by simpa [first] using here), ih later, Nat.add_sub_cancel_left,
        show b + 1 + d - b = d + 1 by omega, List.drop_succ_cons]

section
variable {r : Record} (ok : r.LogOk)
include ok

theorem Record.LogOk.oldest : r.oldest = r.written - 2048 := by
  obtain ⟨_, _, hold, _⟩ := ok
  unfold Record.oldest
  split
  · next held => exact (Nat.sub_eq_zero_of_le (hold held)).symm
  · rfl

theorem Record.LogOk.base : r.written - r.log.length = r.written - 2048 := by
  rw [ok.1, Config.logSize]
  omega

theorem Record.LogOk.entriesFrom (k : Nat) : r.entriesFrom k = (r.log.drop (k - (r.written - 2048))).take 8 := by
  have numbered := ok.2.1
  rw [ok.base] at numbered
  unfold Record.entriesFrom
  split
  · next over_ =>
    have length := ok.1
    rw [List.drop_eq_nil_of_le (by rw [length, Config.logSize]; omega)]
    rfl
  · rw [filter_seq numbered k]

theorem Record.LogOk.length_entriesFrom (k : Nat) : (r.entriesFrom k).length = min 8 (r.written - max k (r.written - 2048)) := by
  rw [ok.entriesFrom, List.length_take, List.length_drop, ok.1, Config.logSize]
  omega

theorem Record.LogOk.entriesFrom_eq {k n : Nat} (number : n = min 8 (r.written - max k (r.written - 2048))) :
    r.entriesFrom k = (r.log.drop (max k (r.written - 2048) - (r.written - r.log.length))).take n := by
  have start : max k (r.written - 2048) - (r.written - 2048) = k - (r.written - 2048) := by omega
  rw [ok.entriesFrom, ok.base, start, List.take_eq_take_iff, List.length_drop, ok.1, Config.logSize]
  omega

theorem Record.LogOk.gap (k : Nat) : r.gap k = decide (k < r.written - 2048) := by
  rw [Record.gap, ok.oldest, ← Bool.decide_and, decide_eq_decide]
  omega

theorem Record.LogOk.nextSeq (k : Nat) : nextSeq k (r.entriesFrom k) =
    if (r.entriesFrom k).length = 0 then k else max k (r.written - 2048) + (r.entriesFrom k).length := by
  have length := ok.length_entriesFrom k
  have numbered := ok.2.1
  rw [ok.base] at numbered
  unfold Machine.nextSeq
  split
  · next empty => rw [List.eq_nil_of_length_eq_zero empty]; rfl
  · next some_ =>
    have last : (r.entriesFrom k).getLast? = r.log[k - (r.written - 2048) + ((r.entriesFrom k).length - 1)]? := by
      rw [List.getLast?_eq_getElem?]
      conv_lhs => rw [ok.entriesFrom k]
      rw [List.getElem?_take_of_lt (by rw [← ok.entriesFrom k]; omega), List.getElem?_drop, ← ok.entriesFrom k]
    have inside : k - (r.written - 2048) + ((r.entriesFrom k).length - 1) < r.log.length := by
      rw [ok.1, Config.logSize]
      omega
    rw [last, List.getElem?_eq_getElem inside, Option.map_some, Option.getD_some,
      numbered _ _ (List.getElem?_eq_getElem inside)]
    omega

end

/-! ## The fields of the other replies -/

theorem optCode_logMode (m : Option LogMode) :
    (m.map LogMode.code).getD 0 = match m with | none => 0 | some .wrap => 1 | some .hold => 2 := by
  rcases m with _ | ⟨_ | _⟩ <;> rfl

theorem Interval.chars_eq (x : Interval) : x.chars = be 1 x.number ++ be 4 x.beginTime ++
    (match x.endTime with | none => 0 :: be 4 0 | some e => 1 :: be 4 e) := by
  obtain ⟨number, begin_, _ | e⟩ := x <;> rfl

theorem alarmEntry_eq (z : Nat) (w : WatchZone) : alarmEntry z w =
    be 1 z ++ [flag w.silentAlarm, flag w.overAlarm] ++ be 2 w.quiet ++ be 2 w.setup.hold
      ++ (match w.last with
          | none => be 1 0 ++ signed 0
          | some x => be 1 x.cls.code ++ signed x.peakLevel) := by
  unfold alarmEntry
  cases w.last <;> simp only [Option.map_none, Option.map_some, Option.getD_none, Option.getD_some, List.append_assoc]

theorem Audio.flag_faulted (c : Audio) : flag c.faulted = flag (decide (c.clock ≠ .good)) := by
  unfold Audio.faulted
  cases c.clock <;> rfl

theorem State.listedAlarms_eq (s : State) (first : Nat) : (s.alarmZones.filter fun z => decide (first ≤ z)) =
    (List.range 32).filter fun z => ((s.watchZone z).silentAlarm || (s.watchZone z).overAlarm) && decide (first ≤ z) := by
  rw [State.alarmZones, List.filter_filter]
  simp only [Bool.and_comm]

theorem laneOfCode_laneCode (m : Lane) : laneOfCode (laneCode m) = some m := by cases m <;> rfl

theorem laneOfCode_of_out {n : Nat} (out : n = 0 ∨ 3 < n) : laneOfCode n = none := by
  rcases out with rfl | big
  · rfl
  · obtain ⟨m, rfl⟩ : ∃ m, n = m + 4 := ⟨n - 4, by omega⟩
    rfl

/-- Settles O44: the kept entries are numbered without a gap, so that those from `k` on are the rest of the log from one place. -/
theorem recordAndLaneReadsReportTheState : Obligations.RecordAndLaneReadsReportTheState := by
  intro l tag first s
  refine ⟨fun above => .of_answer rfl (if_pos above), ?poll, ?record, fun m => ?lane, fun n out => ?noLane, ?causes, ?identity⟩
  case poll =>
    intro holds listed below
    refine .of_answer rfl ((if_neg (Nat.not_le.mpr below)).trans ?_)
    simp only [State.listedAlarms_eq, Audio.flag_faulted, alarmEntry_eq]
    rfl
  case record =>
    intro r entry oldest mode kept
    have entry_eq : LogEntry.chars = entry := by
      funext e
      rw [e.chars_eq]
      refine congr (congr (congrArg e.charsOf ?_) ?_) ?_
      · cases e.detail <;> rfl
      · obtain ⟨_ | _ | _⟩ | _ | _ := e.lane <;> rfl
      · cases e.detail
        case performanceStart m => cases m <;> rfl
        case runRetired cause cut => cases cause <;> cases cut <;> rfl
        case movesSnapped index n => exact congrArg (n + ·) (fieldAt_eq ..)
        case callLive cls n arrival => cases cls <;> simp only [Detail.value, fieldAt_eq] <;> rfl
        case callEnd reason arrival => cases reason <;> simp only [Detail.value, fieldAt_eq] <;> rfl
        case alarmSetSilent level hold => exact congrArg (hold + ·) (fieldAt_eq ..)
        case alarmClear isOver cause => cases cause <;> rfl
        case inputSwap x xi y yi => simp only [Detail.value, fieldAt_eq]
        case intervalBegin n => exact fieldAt_eq ..
        case intervalEnd n length => simp only [Detail.value, fieldAt_eq]
        case engineReset runs slots waiting live =>
          simp only [Detail.value, fieldAt_eq]
          cases live with
          | none => rfl
          | some n => exact Nat.add_assoc ..
        case performanceEnd n closed => rfl
        all_goals rfl
    refine ⟨fun ok => ?_, fun ok k n number => ?_⟩
    · refine .of_answer rfl ?_
      have oldest_eq : optBytes 4 (if r.written = 0 then none else some r.oldest) = kept := by
        rw [ok.oldest]
        by_cases unwritten : r.written = 0
        · simp only [kept, if_pos unwritten]
          rfl
        · simp only [kept, if_neg unwritten]
          rfl
      rw [exec, execRecordStatus, optCode_logMode, funext Interval.chars_eq, oldest_eq, Counters.chars]
      obtain _ | _ | _ := s.record.startMode <;> rfl
    · refine .of_answer rfl ?_
      have entries : r.entriesFrom k = (r.log.drop (max k oldest - (r.written - r.log.length))).take n := ok.entriesFrom_eq number
      have length : (r.entriesFrom k).length = n := (ok.length_entriesFrom k).trans number.symm
      have gap : r.gap k = decide (k < oldest) := ok.gap k
      rw [exec, execReadLog, optCode_logMode, ok.oldest, gap, ok.nextSeq k, length, entry_eq, entries] <;> rfl
  case lane =>
    refine .of_answer rfl ?_
    rw [exec, execLaneStatus, laneOfCode_laneCode]
    cases m <;> rfl
  case noLane =>
    refine .of_answer rfl ?_
    rw [exec, execLaneStatus, laneOfCode_of_out out]
  case causes =>
    refine .of_answer rfl ?_
    rw [exec, execResetCauses, Causes.chars]
    obtain _ | _ | _ | _ := s.causes.lane <;> rfl
  case identity =>
    refine .of_answer rfl ?_
    cases l <;> rfl

end Sys2Proof.Machine
end

section
/-! The call queue: calls that open, become live, wait, are withdrawn and end (6.4). -/

namespace Sys2Proof.Machine

/-! ## A call made live, and the live call ended (R115 to R117) -/

theorem lowestZone_eq (z : ZoneSet) : lowestZone z = leastZone z := List.head?_filter

theorem length_zoneList (z : ZoneSet) : (zoneList z).length = zoneCount z := by rw [zoneList, zoneCount]

theorem State.goLive_madeLive (s : State) (old : ZoneSet) (c : Call) : MadeLive s (s.goLive old c) old c s.record := by
  refine ⟨rfl, fun z below => State.zone_retarget { s with calls := _ } old c.zones z below, ?_⟩
  rw [← lowestZone_eq, ← length_zoneList]
  rfl

theorem State.goLive_noticed (s : State) (old : ZoneSet) (c : Call) : Noticed s (s.goLive old c) [.call] :=
  ((Noticed.refl s).of_lanes rfl).noticeAll .call

/-- CALL given once more to lanes that have it changes none of them. -/
theorem Noticed.call_again {s t : State} (h : Noticed s t [.call]) : Noticed s (t.noticeAll .call) [.call] := by
  intro m
  rw [h.noticeAll .call m]
  exact LaneState.notify_notify_self ..

section
variable {s : State} {x : LiveCall} (live : s.calls.live = some x) (reason : EndReason)
include live

/-- The state in which the live call is over and CALL_END has been handed to the record. -/
theorem State.endLive_grant (c : Call) : s.endLive reason (some c) = (State.goLive x.call.zones c { s with
    calls := { s.calls with live := none }, record := endedRecord s x reason }).noticeAll .call := by
  rw [State.endLive, live, endedRecord, ← lowestZone_eq]
  rfl

theorem State.endLive_alone : s.endLive reason none = (State.retarget x.call.zones 0 { s with
    calls := { s.calls with live := none }, record := endedRecord s x reason }).noticeAll .call := by
  rw [State.endLive, live, endedRecord, ← lowestZone_eq]
  rfl

theorem State.endLive_madeLive (c : Call) : MadeLive s (s.endLive reason (some c)) x.call.zones c (endedRecord s x reason) := by
  rw [State.endLive_grant live]
  exact State.goLive_madeLive { s with calls := _, record := _ } x.call.zones c

theorem State.endLive_noticed (next : Option Call) : Noticed s (s.endLive reason next) [.call] := by
  cases next with
  | none =>
    rw [State.endLive_alone live]
    exact ((Noticed.refl s).of_lanes rfl).noticeAll .call
  | some c =>
    rw [State.endLive_grant live]
    exact Noticed.call_again (State.goLive_noticed { s with calls := _, record := _ } _ c)

theorem State.endLive_calls (next : Option Call) :
    (s.endLive reason next).calls =
      { live := (s.endLive reason next).calls.live, waiting := s.calls.waiting, arrival := s.calls.arrival } := by
  cases next with
  | none => rw [State.endLive_alone live]; rfl
  | some c => rw [State.endLive_grant live]; rfl

theorem State.endLive_endedAlone : EndedAlone s (s.endLive reason none) x reason := by
  rw [State.endLive_alone live]
  refine ⟨rfl, fun z below => ?_, rfl⟩
  refine (State.zone_retarget { s with calls := _, record := _ } x.call.zones 0 z below).trans ?_
  rw [if_neg (by simp)]
  rfl

end

theorem State.endLive_frame (s : State) (reason : EndReason) (next : Option Call) : s.endLive reason next = { s with
    lanes := (s.endLive reason next).lanes, zones := (s.endLive reason next).zones,
    calls := (s.endLive reason next).calls, record := (s.endLive reason next).record } := by
  apply State.ext_fields <;> simp

/-! ## The grant order (R114) -/

/-- One call of the waiting list weighed against the best before it. -/
def betterCall (best : Option Call) (c : Call) : Option Call :=
  match best with
  | none => some c
  | some b => if b.cls.rank < c.cls.rank then some c else some b

theorem bestWaiting_eq (cs : List Call) : bestWaiting cs = cs.foldl betterCall none := rfl

theorem foldl_betterCall_of_lower {b : Call} {cs : List Call} (lower : ∀ d ∈ cs, d.cls.rank < b.cls.rank) {best : Option Call}
    (held : ∀ x, best = some x → x.cls.rank < b.cls.rank) :
    ∀ x : Call, cs.foldl betterCall best = some x → x.cls.rank < b.cls.rank := by
  induction cs generalizing best with
  | nil => exact held
  | cons c cs ih =>
    obtain ⟨here, later⟩ := List.forall_mem_cons.mp lower
    refine ih later fun x e => ?_
    unfold betterCall at e
    split at e
    · exact Option.some.inj e ▸ here
    · split at e
      · exact Option.some.inj e ▸ here
      · exact held x e

theorem foldl_betterCall_of_not_higher {b : Call} {cs : List Call} (lower : ∀ d ∈ cs, d.cls.rank ≤ b.cls.rank) :
    cs.foldl betterCall (some b) = some b := by
  induction cs with
  | nil => rfl
  | cons c cs ih =>
    obtain ⟨here, later⟩ := List.forall_mem_cons.mp lower
    have kept : betterCall (some b) c = some b := if_neg (Nat.not_lt.mpr here)
    rw [List.foldl_cons, kept, ih later]

theorem GrantedOf.bestWaiting {waiting before after : List Call} {b : Call} (h : GrantedOf waiting before b after) :
    bestWaiting waiting = some b := by
  obtain ⟨split_, lower, notHigher⟩ := h
  have taken : betterCall (before.foldl betterCall none) b = some b := by
    unfold betterCall
    split
    · rfl
    · next x e => exact if_pos (foldl_betterCall_of_lower lower (fun y none_ => by cases none_) x e)
  rw [bestWaiting_eq, split_, List.foldl_append, List.foldl_cons, taken, foldl_betterCall_of_not_higher notHigher]

theorem GrantedOf.erase {waiting before after : List Call} {b : Call} (h : GrantedOf waiting before b after) :
    waiting.erase b = before ++ after := by
  obtain ⟨split_, lower, _⟩ := h
  have fresh : b ∉ before := fun mem => Nat.lt_irrefl _ (lower b mem)
  rw [split_, List.erase_append_right _ fresh, List.erase_cons_head]

/-! ## CALL CLOSE and CALL_TIMEOUT (R117 to R119) -/

/-- The waiting call `c` has left the list. -/
def State.withdrawn (c : Call) (s : State) : State := { s with calls := { s.calls with waiting := s.calls.waiting.erase c } }

section
variable (l : Lane) (tag : Byte) {s : State}

theorem exec_callClose_live {x : LiveCall} (live : s.calls.live = some x) (own : x.call.lane = l) :
    exec (.callClose l tag) s = .next ((s.endAndGrant .closed).answer (.callClose l tag) .ok (1 :: be 2 x.call.arrival)) := by
  rw [exec, execCallClose, live, Option.filter_some, if_pos (by simpa using own)]
  rfl

section
variable (other : ∀ x, s.calls.live = some x → x.call.lane ≠ l)
include other

theorem live_filter_eq_none : s.calls.live.filter (fun x => x.call.lane == l) = none := by
  rw [Option.filter_eq_none_iff]
  intro x live
  simpa using other x live

theorem exec_callClose_waiting {c : Call} (found : s.calls.waiting.find? (fun c => c.lane == l) = some c) :
    exec (.callClose l tag) s =
      .next (((s.withdrawn c).noticeAll .call).answer (.callClose l tag) .ok (2 :: be 2 c.arrival)) := by
  rw [exec, execCallClose, live_filter_eq_none l other]
  simp only [found]
  rfl

theorem exec_callClose_notLive (none_ : s.calls.waiting.find? (fun c => c.lane == l) = none) :
    exec (.callClose l tag) s = .next (s.answer (.callClose l tag) .notLive []) := by
  rw [exec, execCallClose, live_filter_eq_none l other]
  simp only [none_]

end

end

theorem State.endAndGrant_alone {s : State} (none_ : s.calls.waiting = []) (reason : EndReason) :
    s.endAndGrant reason = s.endLive reason none := by rw [State.endAndGrant, none_]; rfl

theorem State.endAndGrant_granted {s : State} {before after : List Call} {b : Call} (granted : GrantedOf s.calls.waiting before b after)
    (reason : EndReason) : s.endAndGrant reason = (s.withdrawn b).endLive reason (some b) := by
  rw [State.endAndGrant, granted.bestWaiting]
  rfl

/-- Settles O47. -/
theorem callsEndByCloseAndTimeout : Obligations.CallsEndByCloseAndTimeout := by
  intro l tag s
  refine ⟨fun x live own => ⟨fun empty => ?alone, fun before b after granted => ?granted⟩, fun before b after waits own fresh other => ?withdrawn,
    fun noCall => ?notLive⟩
  case alone =>
    have ended : ∀ reason, s.endAndGrant reason = s.endLive reason none := State.endAndGrant_alone empty
    have calls : ∀ reason, (s.endLive reason none).calls =
        { live := (s.endLive reason none).calls.live, waiting := [], arrival := s.calls.arrival } := fun reason =>
      (State.endLive_calls live reason none).trans (by rw [empty])
    refine ⟨⟨_, exec_callClose_live l tag live own, ?_⟩, _, exec_callTimeout_of_live live, ?_⟩
    · rw [ended]
      refine ⟨State.endLive_endedAlone live .closed, (State.answer_calls ..).trans (calls .closed),
        .of_answer rfl (State.endLive_noticed live .closed none) _ _, ?_⟩
      apply State.ext_fields <;> simp
    · rw [ended]
      exact ⟨State.endLive_endedAlone live .timeout, calls .timeout, State.endLive_noticed live .timeout none, State.endLive_frame ..⟩
  case granted =>
    have ended : ∀ reason, s.endAndGrant reason = (s.withdrawn b).endLive reason (some b) := State.endAndGrant_granted granted
    have calls : ∀ reason, ((s.withdrawn b).endLive reason (some b)).calls =
        { live := ((s.withdrawn b).endLive reason (some b)).calls.live, waiting := before ++ after, arrival := s.calls.arrival } :=
      fun reason => (State.endLive_calls (s := s.withdrawn b) live reason (some b)).trans (by rw [← granted.erase]; rfl)
    have live' : (s.withdrawn b).calls.live = some x := live
    refine ⟨⟨_, exec_callClose_live l tag live own, ?_⟩, _, exec_callTimeout_of_live live, ?_⟩
    · rw [ended]
      refine ⟨State.endLive_madeLive live' .closed b, (State.answer_calls ..).trans (calls .closed),
        .of_answer rfl (State.endLive_noticed live' .closed _) _ _, ?_⟩
      apply State.ext_fields <;> simp [State.withdrawn]
    · rw [ended]
      exact ⟨State.endLive_madeLive live' .timeout b, calls .timeout, State.endLive_noticed live' .timeout _,
        (s.withdrawn b).endLive_frame ..⟩
  case withdrawn =>
    have found : s.calls.waiting.find? (fun c => c.lane == l) = some b := by
      rw [waits, List.find?_append, List.find?_eq_none.mpr fun d mem => by simpa using fresh d mem, List.find?_cons_of_pos (by simpa using own)]
      rfl
    have erased : s.calls.waiting.erase b = before ++ after := by
      rw [waits, List.erase_append_right _ fun mem => fresh b mem own, List.erase_cons_head]
    refine ⟨_, exec_callClose_waiting l tag other found, .of_answer rfl (((Noticed.refl s).of_lanes rfl).noticeAll .call) _ _, ?_⟩
    rw [← erased]
    exact State.answer_frame ..
  case notLive =>
    have other : ∀ x, s.calls.live = some x → x.call.lane ≠ l := fun x live own => noCall (by simp [Calls.lanes, live, own])
    have none_ : s.calls.waiting.find? (fun c => c.lane == l) = none := by
      rw [List.find?_eq_none]
      intro d mem own
      exact noCall (List.mem_append_right _ (List.mem_map.mpr ⟨d, mem, by simpa using own⟩))
    exact .of_answer rfl (exec_callClose_notLive l tag other none_)

/-! ## CALL OPEN (R113) -/

theorem classOfCode_code (cls : CallClass) : classOfCode cls.code = some cls := by cases cls <;> rfl

theorem classOfCode_of_other {k : Nat} (not1 : k ≠ 1) (not2 : k ≠ 2) (not3 : k ≠ 3) : classOfCode k = none := by
  unfold classOfCode
  split
  · exact absurd rfl not1
  · exact absurd rfl not2
  · exact absurd rfl not3
  · rfl

theorem bne_clampBase (v : Int) : (v != clampBase v) = decide (v < -900 ∨ 120 < v) := by
  rw [Bool.eq_iff_iff, bne_iff_ne, decide_eq_true_eq]
  exact ne_clamp_iff (by decide) v

/-- The arrival number has been given out (R112). -/
def State.counted (s : State) : State := { s with calls := { s.calls with arrival := nextArrival s.calls.arrival } }

section
variable (l : Lane) (tag : Byte) (zs : ZoneSet) (v : Int) {s : State}

theorem exec_callOpen_malformed {k : Nat} (other : classOfCode k = none) :
    exec (.callOpen l tag k zs v) s = .next (s.answer (.callOpen l tag k zs v) .malformed []) := by
  rw [exec, execCallOpen, other]

variable (cls : CallClass)

theorem exec_callOpen_outOfRange :
    exec (.callOpen l tag cls.code 0 v) s = .next (s.answer (.callOpen l tag cls.code 0 v) .outOfRange []) := by
  rw [exec, execCallOpen, classOfCode_code]
  exact if_pos rfl

variable {zs} (some_ : zs ≠ 0)
include some_

theorem exec_callOpen_busy (holds : l ∈ s.calls.lanes) :
    exec (.callOpen l tag cls.code zs v) s = .next (s.answer (.callOpen l tag cls.code zs v) .busy []) := by
  rw [exec, execCallOpen, classOfCode_code]
  exact (if_neg some_).trans (if_pos ((Calls.holds_iff _ _).mpr holds))

variable (free : l ∉ s.calls.lanes)
include free

theorem exec_callOpen_taken : exec (.callOpen l tag cls.code zs v) s =
    .next ((s.placeCall ⟨l, s.calls.arrival, cls, zs, clampBase v⟩).answer (.callOpen l tag cls.code zs v) .ok
      (be 2 s.calls.arrival ++ be 1 (if s.calls.wouldWait cls then 2 else 1)
        ++ optBytes 1 (if s.calls.wouldWait cls then some (aheadOf cls s.calls.waiting) else none)
        ++ [flag (decide (v < -900 ∨ 120 < v))])) := by
  rw [exec, execCallOpen, classOfCode_code, ← bne_clampBase]
  exact (if_neg some_).trans (if_neg fun holds => free ((Calls.holds_iff _ _).mp holds))

theorem exec_callOpen_live (goes : s.calls.wouldWait cls = false) : exec (.callOpen l tag cls.code zs v) s =
    .next ((s.placeCall ⟨l, s.calls.arrival, cls, zs, clampBase v⟩).answer (.callOpen l tag cls.code zs v) .ok
      (be 2 s.calls.arrival ++ [1, 0, 0, flag (decide (v < -900 ∨ 120 < v))])) := by
  rw [exec_callOpen_taken l tag v cls some_ free, goes]
  simp [be, optBytes, flag]

theorem exec_callOpen_waits (waits : s.calls.wouldWait cls = true) : exec (.callOpen l tag cls.code zs v) s =
    .next ((s.placeCall ⟨l, s.calls.arrival, cls, zs, clampBase v⟩).answer (.callOpen l tag cls.code zs v) .ok
      (be 2 s.calls.arrival ++ [2, 1] ++ be 1 (aheadOf cls s.calls.waiting) ++ [flag (decide (v < -900 ∨ 120 < v))])) := by
  rw [exec_callOpen_taken l tag v cls some_ free, waits]
  simp [be, optBytes, flag]

end

section
variable {s : State} {c : Call}

theorem State.placeCall_none (none_ : s.calls.live = none) : s.placeCall c = s.counted.goLive 0 c := by
  rw [State.placeCall, none_]
  rfl

theorem State.placeCall_over {x : LiveCall} (live : s.calls.live = some x) (stop : c.cls = .showStop) (lesser : x.call.cls ≠ .showStop) :
    s.placeCall c = s.counted.endLive .preempted (some c) := by
  rw [State.placeCall, live]
  exact if_pos (by simp [stop, lesser])

theorem State.placeCall_waits {x : LiveCall} (live : s.calls.live = some x) (waits : c.cls ≠ .showStop ∨ x.call.cls = .showStop) :
    s.placeCall c = State.noticeAll .call { s with
      calls := { s.calls with waiting := s.calls.waiting ++ [c], arrival := nextArrival s.calls.arrival } } := by
  rw [State.placeCall, live]
  refine if_neg fun over_ => ?_
  rw [Bool.and_eq_true, beq_iff_eq, bne_iff_ne] at over_
  exact waits.elim (fun h => h over_.1) over_.2

end

/-- Settles O46. -/
theorem callOpenIsRefusedLiveOrWaiting : Obligations.CallOpenIsRefusedLiveOrWaiting := by
  intro l tag k zs v s
  refine ⟨fun not1 not2 not3 => .of_answer rfl (exec_callOpen_malformed l tag zs v (classOfCode_of_other not1 not2 not3)), ?_⟩
  rintro cls rfl
  refine ⟨?_, fun some_ holds => .of_answer rfl (exec_callOpen_busy l tag v cls some_ holds), fun some_ free => ?_⟩
  · rintro rfl
    exact .of_answer rfl (exec_callOpen_outOfRange l tag v cls)
  intro c arrival clamped
  refine ⟨fun none_ => ?_, fun x live stop lesser => ?_, fun x live waits => ?_⟩
  · have goes : s.calls.wouldWait cls = false := by rw [Calls.wouldWait, none_]
    refine ⟨_, exec_callOpen_live l tag v cls some_ free goes, ?_⟩
    rw [State.placeCall_none none_]
    exact ⟨s.counted.goLive_madeLive 0 c, rfl, .of_answer rfl (s.counted.goLive_noticed 0 c) _ _, State.answer_frame ..⟩
  · have goes : s.calls.wouldWait cls = false := by simp [Calls.wouldWait, live, stop, lesser]
    have live' : s.counted.calls.live = some x := live
    refine ⟨_, exec_callOpen_live l tag v cls some_ free goes, ?_⟩
    rw [State.placeCall_over live stop lesser]
    refine ⟨State.endLive_madeLive live' .preempted c, State.endLive_calls live' .preempted _,
      .of_answer rfl (State.endLive_noticed live' .preempted _) _ _, ?_⟩
    apply State.ext_fields <;> simp [State.counted]
  · have stays : s.calls.wouldWait cls = true := by
      rcases waits with h | h <;> simp [Calls.wouldWait, live, h]
    refine ⟨_, exec_callOpen_waits l tag v cls some_ free stays, ?_⟩
    rw [State.placeCall_waits live waits]
    exact ⟨rfl, .of_answer rfl (((Noticed.refl s).of_lanes rfl).noticeAll .call) _ _, State.answer_frame ..⟩

end Sys2Proof.Machine
end

section
/-! One audio frame: its mix and zone sums, and the relay watch that measures it (2.3, 6.2, 7.2, 7.3). -/

namespace Sys2Proof

theorem mapFrom_map_range {β γ : Type} (f : Nat → β → γ) (g : Nat → β) (n : Nat) :
    mapFrom f 0 ((List.range n).map g) = (List.range n).map fun k => f k (g k) := by
  apply List.ext_getElem?
  intro j
  rcases Nat.lt_or_ge j n with below | above
  · simp [getElem?_mapFrom, below]
  · simp [getElem?_mapFrom, above]

theorem getD_map_range {β : Type} (f : Nat → β) (n m : Nat) (d : β) : ((List.range n).map f).getD m d = if m < n then f m else d := by
  rcases Nat.lt_or_ge m n with below | above
  · simp [below]
  · simp [Nat.not_lt.mpr above]

namespace Machine

/-! ## The sums of a frame (R28 to R31, R108) -/

section
variable (s : State) (i0 i1 : List Int)

/-- The accumulator of a mix is the sum over the 40 sources of the scaled sample scaled by its send's gain (R29). -/
theorem State.accumulator_eq (m : Nat) : s.accumulator (s.scaledSources i0 i1) m =
    ∑ k ∈ Finset.range 40, scale (s.scaledSource i0 i1 k) (s.gainOf (40 + 40 * m + k)) := by
  rw [State.accumulator, State.scaledSources, mapFrom_map_range]
  rfl

/-- The signal of a mix, whether or not it is masked (R28 to R30). -/
theorem State.mixSignals_getD (m : Nat) : (s.mixSignals i0 i1).getD m 0 = if m < 24 then max (-8388608) (min 8388607
    (scale (∑ k ∈ Finset.range 40, scale (s.scaledSource i0 i1 k) (gain (s.point (40 + 40 * m + k)).effective))
      (gain (s.point (1000 + m)).effective))) else 0 := by
  rw [State.mixSignals, getD_map_range, State.mixSignal, State.accumulator_eq]
  rfl

theorem State.computeFrame_mix {m : Nat} (below : m < 24) : (s.computeFrame i0 i1).mixes.getD m 0 =
    if s.masks.getD m false then 0 else (s.mixSignals i0 i1).getD m 0 := by
  have masked : (s.computeFrame i0 i1).mixes = (List.range 24).map fun k =>
      if s.masks.getD k false then 0 else s.mixSignal (s.scaledSources i0 i1) k :=
    mapFrom_map_range (fun m x => if s.masks.getD m false then 0 else x) (s.mixSignal (s.scaledSources i0 i1)) 24
  rw [masked, getD_map_range, if_pos below, State.mixSignals, getD_map_range]
  exact congrArg (fun x => if s.masks.getD m false then 0 else x) (if_pos below).symm

theorem State.computeFrame_zone {z : Nat} (below : z < 32) : (s.computeFrame i0 i1).zones.getD z 0 =
    max (-8388608) (min 8388607 (s.zoneSum (s.mixSignals i0 i1) (callInput i1) z)) := by
  have limited : (s.computeFrame i0 i1).zones = (List.range 32).map fun k => sat24 (s.zoneSum (s.mixSignals i0 i1) (callInput i1) k) :=
    List.map_map
  rw [limited, getD_map_range, if_pos below]
  rfl

/-- The sum of a zone: its routed mix, scaled by the ducked zone level, and the call (R108). -/
theorem State.zoneSum_eq (mixes : List Int) (call : Int) (z : Nat) : s.zoneSum mixes call z =
    (match (s.zone z).route with
      | none => 0
      | some m =>
        scale (mixes.getD m 0)
          (if (s.point (1024 + z)).effective ≤ -900 then 0
          else if (s.point (1024 + z)).effective - (s.zone z).duck ≤ -900 then 0
          else gain ((s.point (1024 + z)).effective - (s.zone z).duck))) +
    (match (s.zone z).targeted, s.calls.live with
      | true, some x => scale call (gain x.call.level)
      | _, _ => 0) := by
  have ducked : gain (duckedLevel (s.zoneLevel z) (s.zone z).duck) =
      if (s.point (1024 + z)).effective ≤ -900 then 0
      else if (s.point (1024 + z)).effective - (s.zone z).duck ≤ -900 then 0
      else gain ((s.point (1024 + z)).effective - (s.zone z).duck) := by
    rw [duckedLevel]
    split
    · exact (gain_of_off (le_refl _)).trans (if_pos ‹_›).symm
    · split
      · exact (gain_of_off (le_refl _)).trans ((if_neg ‹_›).trans (if_pos ‹_›)).symm
      · exact ((if_neg ‹_›).trans (if_neg ‹_›)).symm
  rw [State.zoneSum, State.relayTerm, State.callTerm, ← ducked]
  congr 1
  cases (s.zone z).targeted <;> cases s.calls.live <;> rfl

end

/-- Settles O18. -/
theorem frameSlotsAreTheMixAndZoneSums : Obligations.FrameSlotsAreTheMixAndZoneSums := by
  intro s i0 i1 source mix
  have signal : ∀ m, (s.mixSignals i0 i1).getD m 0 = if m < 24 then mix m else 0 := s.mixSignals_getD i0 i1
  refine ⟨fun m below => ?_, fun z below => ?_⟩
  · rw [s.computeFrame_mix i0 i1 below, signal, if_pos below]
  · rw [s.computeFrame_zone i0 i1 below, State.zoneSum_eq]
    simp only [signal] <;> rfl

/-! ## Zones taken in order by the relay watch (R134, R136) -/

/-- ALARM given once more to lanes that have it changes none of them. -/
theorem LaneState.notifyAll_alarm (x : LaneState) (p q : Bool) :
    (x.notifyAll (if p then [] else [.alarm])).notifyAll (if q then [] else [.alarm]) =
      x.notifyAll (if p && q then [] else [.alarm]) := by
  cases p <;> cases q
  · exact LaneState.notify_notify_self ..
  all_goals rfl

/-- Zones have been taken in order: the record of each is the one given, each change of an alarm has been handed to the record for
ENGINE, ALARM is added to every lane if there is one, and nothing else has changed. -/
structure ZonesTaken (s t : State) (zs : List Nat) (next : Nat → WatchZone) (changes : Nat → List Detail) : Prop where
  zone : ∀ z, t.watchZone z = if z ∈ zs ∧ z < 32 then next z else s.watchZone z
  record : t.record = zs.foldl (fun r z => (changes z).foldl (fun r d => r.hand .engine none (some z) d) r) s.record
  noticed : Noticed s t (if (zs.flatMap changes).isEmpty then [] else [.alarm])
  frame : t = s.watching t

namespace ZonesTaken

theorem nil (s : State) (next : Nat → WatchZone) (changes : Nat → List Detail) : ZonesTaken s s [] next changes where
  zone _ := rfl
  record := rfl
  noticed := .refl s
  frame := rfl

/-- Zones that keep their records and change no alarm. -/
theorem kept (s : State) (zs : List Nat) : ZonesTaken s s zs s.watchZone (fun _ => []) where
  zone y := by rw [ite_self]
  record := by
    induction zs with
    | nil => rfl
    | cons z zs ih => exact ih
  noticed := by
    have none_ : (zs.flatMap fun _ => ([] : List Detail)) = [] := by simp
    rw [none_]
    exact .refl s
  frame := rfl

theorem congr {s t : State} {zs : List Nat} {next next' : Nat → WatchZone} {changes changes' : Nat → List Detail}
    (h : ZonesTaken s t zs next changes) (same : ∀ z ∈ zs, next z = next' z ∧ changes z = changes' z) :
    ZonesTaken s t zs next' changes' where
  zone z := by
    rw [h.zone]
    split
    · next mem => exact (same z mem.1).1
    · rfl
  record := by
    rw [h.record]
    exact List.foldl_ext _ _ _ fun r z mem => by rw [(same z mem).2]
  noticed := by
    have changed : zs.flatMap changes = zs.flatMap changes' := List.flatMap_congr fun z mem => (same z mem).2
    rw [← changed]
    exact h.noticed
  frame := h.frame

theorem cons {s t u : State} {z : Nat} {zs : List Nat} {next : Nat → WatchZone} {changes : Nat → List Detail} (fresh : z ∉ zs)
    (first : ZonesTaken s t [z] next changes) (rest : ZonesTaken t u zs next changes) : ZonesTaken s u (z :: zs) next changes where
  zone y := by
    rw [rest.zone, first.zone]
    by_cases same : y = z
    · subst same
      simp [fresh]
    · simp [same]
  record := by
    rw [rest.record, first.record]
    rfl
  noticed m := by
    rw [rest.noticed m, first.noticed m, LaneState.notifyAll_alarm]
    simp only [List.flatMap_cons, List.flatMap_nil, List.append_nil]
    cases changes z <;> rfl
  frame := State.watching_trans first.frame rest.frame

/-- Zones taken in order, each step reading of the state no more than its zone's record, the store and the fault-seen flag. -/
theorem foldl {step : State → Nat → State} {next : State → Nat → WatchZone} {changes : State → Nat → List Detail}
    (reads : ∀ s t z, t = s.watching t → t.watchZone z = s.watchZone z → next t z = next s z ∧ changes t z = changes s z)
    {zs : List Nat} (distinct : zs.Nodup) (s : State)
    (each : ∀ t z, t = s.watching t → ZonesTaken t (step t z) [z] (next t) (changes t)) :
    ZonesTaken s (zs.foldl step s) zs (next s) (changes s) := by
  induction zs generalizing s with
  | nil => exact .nil ..
  | cons z zs ih =>
    obtain ⟨fresh, distinct⟩ := List.nodup_cons.mp distinct
    have first := each s z rfl
    refine .cons fresh first ((ih distinct (step s z) fun t y frame =>
      each t y (State.watching_trans first.frame frame)).congr fun y mem => ?_)
    have other : y ≠ z := ne_of_mem_of_not_mem mem fresh
    refine reads s _ y first.frame ?_
    rw [first.zone, if_neg (by simp [other])]

/-- The record of a zone changed, and no alarm. -/
theorem changed (s : State) (z : Nat) (f : WatchZone → WatchZone) :
    ZonesTaken s (s.onWatchZone z f) [z] (fun y => f (s.watchZone y)) (fun _ => []) where
  zone y := by
    rw [State.watchZone_onWatchZone]
    simp only [List.mem_singleton]
  record := rfl
  noticed := .refl s
  frame := rfl

/-- The record of a zone written, and changes of its alarms reported. -/
theorem found {s : State} {z : Nat} (w : WatchZone) (ds : List Detail) :
    ZonesTaken s (ds.foldl (fun s d => s.alarmEvent .engine z d) (s.onWatchZone z fun _ => w)) [z] (fun _ => w) (fun _ => ds) := by
  suffices events : ∀ (ds : List Detail) (t : State), (∀ y, (ds.foldl (fun s d => s.alarmEvent .engine z d) t).watchZone y = t.watchZone y) ∧
      (ds.foldl (fun s d => s.alarmEvent .engine z d) t).record = ds.foldl (fun r d => r.hand .engine none (some z) d) t.record ∧
      Noticed t (ds.foldl (fun s d => s.alarmEvent .engine z d) t) (if ds.isEmpty then [] else [.alarm]) ∧
      ds.foldl (fun s d => s.alarmEvent .engine z d) t = t.watching (ds.foldl (fun s d => s.alarmEvent .engine z d) t) by
    obtain ⟨zones, record, noticed, frame⟩ := events ds (s.onWatchZone z fun _ => w)
    refine ⟨fun y => ?_, record, ?_, State.watching_trans rfl frame⟩
    · exact (zones y).trans ((changed s z fun _ => w).zone y)
    · simp only [List.flatMap_cons, List.flatMap_nil, List.append_nil]
      exact noticed
  intro ds
  induction ds with
  | nil => exact fun t => ⟨fun _ => rfl, rfl, .refl t, rfl⟩
  | cons d ds ih =>
    intro t
    obtain ⟨zones, record, noticed, frame⟩ := ih (t.alarmEvent .engine z d)
    have told : Noticed t (t.alarmEvent .engine z d) [.alarm] := ((Noticed.refl t).of_lanes rfl).noticeAll .alarm
    refine ⟨zones, record, fun m => ?_, State.watching_trans rfl frame⟩
    exact ((noticed m).trans (congrArg _ (told m))).trans (LaneState.notifyAll_alarm _ false _)

end ZonesTaken

theorem State.alarmEventIf_alarmEventIf (s : State) (z : Nat) (b1 b2 : Bool) (d1 d2 : Detail) :
    (s.alarmEventIf b1 .engine z d1).alarmEventIf b2 .engine z d2 =
      ((if b1 then [d1] else []) ++ if b2 then [d2] else []).foldl (fun s d => s.alarmEvent .engine z d) s := by
  cases b1 <;> cases b2 <;> rfl

/-! ## The end of a window (R129 to R134) -/

/-- What a zone's record holds after the window (R129). -/
def State.endedZone (s : State) (z : Nat) : WatchZone :=
  if (s.watchZone z).setup.enable then (s.watchZone z).ended s.watch.faultSeen else s.watchZone z

/-- The changes of a zone's alarms that the end of the window reports (R134). -/
def State.endChanges (s : State) (z : Nat) : List Detail :=
  (if (s.watchZone z).silentAlarm = (s.endedZone z).silentAlarm then []
    else if (s.watchZone z).silentAlarm then
      [.alarmClear false (if (s.watchZone z).seenUnrouted then .deliberate else .signal)]
    else [.alarmSetSilent (peakLevel (s.watchZone z).peak) (s.watchZone z).setup.hold]) ++
  (if (s.watchZone z).overAlarm = (s.endedZone z).overAlarm then [] else [.alarmSetOver (s.watchZone z).saturated])

theorem silentDetail_eq (w : WatchZone) (faultSeen now : Bool) : silentDetail w faultSeen now =
    if now then .alarmSetSilent (peakLevel w.peak) w.setup.hold
    else .alarmClear false (if w.seenUnrouted then .deliberate else .signal) := by
  unfold silentDetail WatchZone.windowClass
  cases now <;> cases w.seenUnrouted <;> cases w.seenDucked <;> cases faultSeen <;> rfl

theorem State.endWindowZone_of_enabled {s : State} {z : Nat} (enabled : (s.watchZone z).setup.enable = true) :
    s.endWindowZone z = (s.endChanges z).foldl (fun s d => s.alarmEvent .engine z d) (s.onWatchZone z fun _ => s.endedZone z) := by
  have ended : s.endedZone z = (s.watchZone z).ended s.watch.faultSeen := if_pos enabled
  have silent : (if ((s.watchZone z).silentAlarm != (s.endedZone z).silentAlarm) = true then
        [silentDetail (s.watchZone z) s.watch.faultSeen (s.endedZone z).silentAlarm] else []) =
      if (s.watchZone z).silentAlarm = (s.endedZone z).silentAlarm then []
      else if (s.watchZone z).silentAlarm then
        [.alarmClear false (if (s.watchZone z).seenUnrouted then .deliberate else .signal)]
      else [.alarmSetSilent (peakLevel (s.watchZone z).peak) (s.watchZone z).setup.hold] := by
    rw [silentDetail_eq]
    cases (s.watchZone z).silentAlarm <;> cases (s.endedZone z).silentAlarm <;> rfl
  have raised : (s.watchZone z).overAlarm = true → (s.endedZone z).overAlarm = true := fun set => by
    rw [ended]
    exact congrArg (· || _) set
  have over_ : (if (!(s.watchZone z).overAlarm && (s.endedZone z).overAlarm) = true then
        [Detail.alarmSetOver (s.watchZone z).saturated] else []) =
      if (s.watchZone z).overAlarm = (s.endedZone z).overAlarm then [] else [.alarmSetOver (s.watchZone z).saturated] := by
    cases held : (s.watchZone z).overAlarm with
    | true => rw [raised held]; rfl
    | false => cases (s.endedZone z).overAlarm <;> rfl
  rw [State.endWindowZone, if_pos enabled, State.endChanges, ← silent, ← over_, ← State.alarmEventIf_alarmEventIf, ended]

theorem State.endWindowZone_taken (s : State) (z : Nat) : ZonesTaken s (s.endWindowZone z) [z] s.endedZone s.endChanges := by
  by_cases enabled : (s.watchZone z).setup.enable = true
  · rw [State.endWindowZone_of_enabled enabled]
    exact (ZonesTaken.found ..).congr fun y mem => by rw [List.mem_singleton.mp mem]; exact ⟨rfl, rfl⟩
  · have same : s.endedZone z = s.watchZone z := if_neg enabled
    rw [State.endWindowZone, if_neg enabled]
    refine (ZonesTaken.kept s [z]).congr fun y mem => ?_
    rw [List.mem_singleton.mp mem, State.endChanges, same, if_pos rfl, if_pos rfl]
    exact ⟨rfl, rfl⟩

theorem State.endWindow_taken (s : State) : ZonesTaken s ((List.range Config.zones).foldl (fun s z => s.endWindowZone z) s)
    (List.range Config.zones) s.endedZone s.endChanges :=
  ZonesTaken.foldl
    (fun s t z frame same => by
      have seen : t.watch.faultSeen = s.watch.faultSeen := by rw [frame]; rfl
      have ended : t.endedZone z = s.endedZone z := by rw [State.endedZone, State.endedZone, same, seen]
      exact ⟨ended, by rw [State.endChanges, State.endChanges, ended, same]⟩)
    List.nodup_range s fun t z _ => t.endWindowZone_taken z

theorem State.exists_zonesTaken_endWindow (s : State) : ∃ u, ZonesTaken s u (List.range 32) s.endedZone s.endChanges ∧
    s.endWindow = { u with watch := { u.watch with frames := 0, faultSeen := u.audio.faulted } } :=
  ⟨_, s.endWindow_taken, by rw [State.endWindow]⟩

section
variable {w : WatchZone} {faultSeen : Bool}

theorem WatchZone.ended_of_unrouted (unrouted : w.seenUnrouted = true) : w.ended faultSeen =
    { setup := w.setup, quiet := 0, silentAlarm := false, overAlarm := w.overAlarm || decide (1 ≤ w.saturated),
      last := some ⟨.cleared, peakLevel w.peak⟩ } := by
  have cls : w.windowClass faultSeen = .cleared := if_pos unrouted
  rw [WatchZone.ended, cls]
  rfl

theorem WatchZone.ended_of_held (routed : ¬ w.seenUnrouted = true) (held : w.seenDucked = true ∨ faultSeen = true) : w.ended faultSeen =
    { setup := w.setup, quiet := 0, silentAlarm := w.silentAlarm, overAlarm := w.overAlarm || decide (1 ≤ w.saturated),
      last := some ⟨.held, peakLevel w.peak⟩ } := by
  have cls : w.windowClass faultSeen = .held := (if_neg routed).trans (if_pos ((Bool.or_eq_true ..).mpr held))
  rw [WatchZone.ended, cls]
  rfl

theorem WatchZone.ended_of_counted (routed : ¬ w.seenUnrouted = true) (counted : ¬ (w.seenDucked = true ∨ faultSeen = true)) :
    w.ended faultSeen =
    let quiet := if peakLevel w.peak < w.setup.threshold then min 6000 (w.quiet + 1) else 0
    { setup := w.setup, quiet := quiet,
      silentAlarm :=
        if peakLevel w.peak < w.setup.threshold then w.silentAlarm || decide (w.setup.hold ≤ quiet)
        else w.silentAlarm && decide (peakLevel w.peak < w.setup.threshold + w.setup.hysteresis),
      overAlarm := w.overAlarm || decide (1 ≤ w.saturated), last := some ⟨.counted, peakLevel w.peak⟩ } := by
  have cls : w.windowClass faultSeen = .counted :=
    (if_neg routed).trans (if_neg fun held => counted ((Bool.or_eq_true ..).mp held))
  have silent : w.nextSilent .counted (peakLevel w.peak) =
      if peakLevel w.peak < w.setup.threshold then
        w.silentAlarm || decide (w.setup.hold ≤ if peakLevel w.peak < w.setup.threshold then min 6000 (w.quiet + 1) else 0)
      else w.silentAlarm && decide (peakLevel w.peak < w.setup.threshold + w.setup.hysteresis) := by
    have quiet : w.nextQuiet .counted (peakLevel w.peak) =
        if peakLevel w.peak < w.setup.threshold then min 6000 (w.quiet + 1) else 0 := rfl
    rw [← quiet, WatchZone.nextSilent]
    by_cases short : peakLevel w.peak < w.setup.threshold
    · rw [if_pos short, if_pos short]
    · rw [if_neg short, if_neg short]
      by_cases loud : w.setup.threshold + w.setup.hysteresis ≤ peakLevel w.peak
      · rw [if_pos loud, decide_eq_false (not_lt.mpr loud), Bool.and_false]
      · rw [if_neg loud, decide_eq_true (not_le.mp loud), Bool.and_true]
  rw [WatchZone.ended, cls]
  simp only [silent]
  rfl

end

/-- Settles O49: each zone's record after the window, and its changes of an alarm in zone order. -/
theorem windowEndFindsAndReports : Obligations.WindowEndFindsAndReports := by
  intro s
  refine ⟨fun short => ?_, fun full => ?_⟩
  · rw [exec, execWindowEnd, State.endFullWindow, if_neg (Nat.not_le.mpr short)]
  obtain ⟨u, taken, ended⟩ := s.exists_zonesTaken_endWindow
  have done : exec .windowEnd s = .next s.endWindow := by rw [exec, execWindowEnd, State.endFullWindow, if_pos full]
  refine ⟨_, done.trans (congrArg _ ended), rfl, ?seen, fun z below => ?zones, ?changes, ?frame⟩
  case seen =>
    have audio : u.audio = s.audio := by rw [taken.frame]; rfl
    change u.audio.faulted = _
    rw [audio, Audio.faulted]
    cases s.audio.clock <;> rfl
  case zones =>
    intro w cls quiet
    refine (taken.zone z).trans ((if_pos ⟨List.mem_range.mpr below, below⟩).trans ?_)
    unfold State.endedZone
    by_cases enabled : w.setup.enable = true
    · refine (if_pos enabled).trans (Eq.trans ?_ (if_pos enabled).symm)
      by_cases unrouted : w.seenUnrouted = true
      · have cls_eq : cls = .cleared := if_pos unrouted
        have quiet_eq : quiet = 0 := if_neg fun h => WindowClass.noConfusion (cls_eq.symm.trans h.1)
        rw [WatchZone.ended_of_unrouted unrouted, quiet_eq, cls_eq]
      · by_cases held : w.seenDucked = true ∨ s.watch.faultSeen = true
        · have cls_eq : cls = .held := (if_neg unrouted).trans (if_pos held)
          have quiet_eq : quiet = 0 := if_neg fun h => WindowClass.noConfusion (cls_eq.symm.trans h.1)
          rw [WatchZone.ended_of_held unrouted held, quiet_eq, cls_eq]
        · have cls_eq : cls = .counted := (if_neg unrouted).trans (if_neg held)
          have quiet_eq : quiet = if peakLevel w.peak < w.setup.threshold then min 6000 (w.quiet + 1) else 0 := by
            simp only [quiet, cls_eq, true_and]
          rw [WatchZone.ended_of_counted unrouted held, quiet_eq, cls_eq]
    · exact (if_neg enabled).trans (if_neg enabled).symm
  case changes =>
    intro changes
    have reported := taken.congr (next' := s.endedZone) (changes' := changes) fun z mem => by
      have zone : u.watchZone z = s.endedZone z := (taken.zone z).trans (if_pos ⟨mem, List.mem_range.mp mem⟩)
      refine ⟨rfl, ?_⟩
      rw [State.endChanges, ← zone]
      rfl
    refine ⟨reported.record, fun m => ?_⟩
    have noticed := reported.noticed m
    simp only [List.isEmpty_iff] at noticed
    exact noticed
  case frame =>
    rw [taken.frame]
    rfl

/-! ## The start of a window (R136) -/

/-- A zone's record at the start of a window. -/
def State.startedZone (s : State) (z : Nat) : WatchZone :=
  if s.watch.frames ≠ 0 then s.watchZone z
  else if (s.watchZone z).setup.enable = true ∧ (s.zoneSetup z).watchEnable = true then
    { s.watchZone z with setup := (s.zoneSetup z).watch }
  else { setup := (s.zoneSetup z).watch }

/-- The alarms that the start of a window clears. -/
def State.startChanges (s : State) (z : Nat) : List Detail :=
  if s.watch.frames = 0 ∧ (s.watchZone z).setup.enable = true ∧ (s.zoneSetup z).watchEnable = false then
    (if (s.watchZone z).silentAlarm then [.alarmClear false .disabled] else []) ++
      (if (s.watchZone z).overAlarm then [.alarmClear true .disabled] else [])
  else []

theorem State.startWindowZone_taken {s : State} (first : s.watch.frames = 0) (z : Nat) :
    ZonesTaken s (s.startWindowZone z) [z] s.startedZone s.startChanges := by
  have started : s.startedZone z = if (s.watchZone z).setup.enable = true ∧ (s.zoneSetup z).watchEnable = true then
      { s.watchZone z with setup := (s.zoneSetup z).watch } else { setup := (s.zoneSetup z).watch } := if_neg (not_not.mpr first)
  by_cases stays : (s.watchZone z).setup.enable = true ∧ (s.zoneSetup z).watchEnable = true
  · have step : s.startWindowZone z = s.onWatchZone z fun w => { w with setup := (s.zoneSetup z).watch } :=
      if_pos ((Bool.and_eq_true ..).mpr stays)
    have silent : s.startChanges z = [] := if_neg fun h => by simp [stays.2] at h
    rw [if_pos stays] at started
    rw [step]
    exact (ZonesTaken.changed ..).congr fun y mem => by rw [List.mem_singleton.mp mem, started, silent]; exact ⟨rfl, rfl⟩
  · have step : s.startWindowZone z = (s.startChanges z).foldl (fun s d => s.alarmEvent .engine z d)
        (s.onWatchZone z fun _ => { setup := (s.zoneSetup z).watch }) := by
      refine (if_neg fun h => stays ((Bool.and_eq_true ..).mp h)).trans ?_
      by_cases enabled : (s.watchZone z).setup.enable = true
      · have changes : s.startChanges z = _ := if_pos ⟨first, enabled, by simpa using fun e => stays ⟨enabled, e⟩⟩
        rw [if_pos enabled, changes, State.alarmEventIf_alarmEventIf]
      · have changes : s.startChanges z = [] := if_neg fun h => enabled h.2.1
        rw [if_neg enabled, changes]
        rfl
    rw [if_neg stays] at started
    rw [step]
    exact (ZonesTaken.found ..).congr fun y mem => by rw [List.mem_singleton.mp mem, started]; exact ⟨rfl, rfl⟩

theorem State.startWindow_taken {s : State} (first : s.watch.frames = 0) :
    ZonesTaken s s.startWindow (List.range Config.zones) s.startedZone s.startChanges :=
  ZonesTaken.foldl
    (fun s t z frame same => by
      have frames : t.watch.frames = s.watch.frames := by rw [frame]; rfl
      have setup : t.zoneSetup z = s.zoneSetup z := by rw [frame]; rfl
      rw [State.startedZone, State.startedZone, State.startChanges, State.startChanges, frames, setup, same]
      exact ⟨rfl, rfl⟩)
    List.nodup_range s fun t z frame => State.startWindowZone_taken (by rw [frame]; exact first) z

/-! ## AUDIO_FRAME (R23, R35, R127) -/

/-- The state in which a frame's window has been begun, if this is its first frame. -/
theorem State.exists_begun (s : State) : ∃ b, ZonesTaken s b (List.range Config.zones) s.startedZone s.startChanges ∧
    b = if s.watch.frames = 0 then s.startWindow else s := by
  refine ⟨_, ?_, rfl⟩
  split
  · next first => exact State.startWindow_taken first
  · next later =>
    exact (ZonesTaken.kept s _).congr fun z _ => ⟨(if_pos later).symm, (if_neg fun h => later h.1).symm⟩

section
variable (i0 i1 : List Int) (s : State)

/-- The zone sums of the frame that these samples make. -/
def State.frameSums : List Int := s.zoneSums (s.mixSignals i0 i1) (callInput i1)

/-- The frame computed, sent and measured in `b`, where its window has begun. -/
def State.measured (b : State) : State :=
  ({ b with audio := s.audio.send (s.computeFrame i0 i1) } : State).measureFrame (s.frameSums i0 i1)

theorem State.audioFrame_eq : ∃ b, ZonesTaken s b (List.range Config.zones) s.startedZone s.startChanges ∧
    s.audioFrame i0 i1 = (s.measured i0 i1 b).endFullWindow.countGoodPeriod := by
  obtain ⟨b, taken, begun⟩ := s.exists_begun
  refine ⟨b, taken, ?_⟩
  have audio : b.audio = s.audio := by rw [taken.frame]; rfl
  have frame : b.computeFrame i0 i1 = s.computeFrame i0 i1 := by rw [taken.frame]; rfl
  have sums : b.zoneSums (b.mixSignals i0 i1) (callInput i1) = s.frameSums i0 i1 := by rw [taken.frame]; rfl
  unfold State.audioFrame
  rw [← begun]
  dsimp only
  rw [sums, audio, frame, State.measured]

end

section
variable {i0 i1 : List Int} {s : State}

theorem exec_audioFrame_of_not_absent (present : s.audio.clock ≠ .absent) : exec (.audioFrame i0 i1) s = .next (s.audioFrame i0 i1) := by
  rw [exec, execAudioFrame]
  cases clock : s.audio.clock with
  | absent => exact absurd clock present
  | good => rfl
  | recovering => rfl

theorem State.countGoodPeriod_of_good {t : State} (good : t.audio.clock = .good) : t.countGoodPeriod = t :=
  if_neg fun h => ClockState.noConfusion (good.symm.trans h)

theorem State.countGoodPeriod_of_last {t : State} (recovering : t.audio.clock = .recovering) (last : 48 ≤ t.audio.goodPeriods + 1) :
    t.countGoodPeriod = t.restoreClock := (if_pos recovering).trans (if_pos last)

theorem State.countGoodPeriod_of_more {t : State} (recovering : t.audio.clock = .recovering) (more : t.audio.goodPeriods + 1 < 48) :
    t.countGoodPeriod = { t with audio := { t.audio with goodPeriods := t.audio.goodPeriods + 1 } } :=
  (if_pos recovering).trans (if_neg (Nat.not_le.mpr more))

theorem Audio.send_of_good {c : Audio} (good : c.clock = .good) (full : c.pipeline.length = 4) (f : OutFrame) :
    c.send f = { c with pipeline := c.pipeline.tail ++ [f], sent := c.pipeline.head? } := by
  obtain ⟨clock, goodPeriods, faultCount, faultMs, pipeline, sent⟩ := c
  obtain rfl : clock = .good := good
  match pipeline, full with
  | [_, _, _, _], _ => rfl

theorem Audio.send_of_recovering {c : Audio} (recovering : c.clock = .recovering) (f : OutFrame) :
    c.send f = { c with pipeline := (c.pipeline ++ [f]).drop (c.pipeline.length - 3), sent := some silentFrame } := by
  have faulted : c.faulted = true := by rw [Audio.faulted, recovering]; rfl
  have dropped : (c.pipeline ++ [f]).length - Config.latency = c.pipeline.length - 3 := by
    rw [List.length_append, Config.latency]
    rfl
  unfold Audio.send
  dsimp only
  rw [faulted, dropped]
  rfl

theorem State.measured_audio (b : State) : ((s.measured i0 i1 b).endFullWindow).audio = s.audio.send (s.computeFrame i0 i1) := by
  rw [State.endFullWindow_audio, State.measured, State.measureFrame_audio]

/-- AUDIO_FRAME leaves alone all but the audio state, the watch, the record and the lanes. -/
theorem State.audioFrame_frame : s.audioFrame i0 i1 = { s with
    audio := (s.audioFrame i0 i1).audio, watch := (s.audioFrame i0 i1).watch, record := (s.audioFrame i0 i1).record,
    lanes := (s.audioFrame i0 i1).lanes } := by
  apply State.ext_fields <;> simp

end

/-- Settles O19. -/
theorem audioFrameLeavesFourFramesLater : Obligations.AudioFrameLeavesFourFramesLater := by
  intro i0 i1 s
  obtain ⟨b, _, taken⟩ := s.audioFrame_eq i0 i1
  have audio := s.measured_audio (i0 := i0) (i1 := i1) b
  generalize (s.measured i0 i1 b).endFullWindow = v at taken audio
  refine ⟨fun absent => ?_, fun good full => ?_, fun recovering short => ?_⟩
  · rw [exec, execAudioFrame, absent]
  · rw [Audio.send_of_good good full] at audio
    have clock : v.audio.clock = .good := by rw [audio]; exact good
    have same : (s.audioFrame i0 i1).audio = v.audio := by rw [taken, State.countGoodPeriod_of_good clock]
    refine ⟨_, exec_audioFrame_of_not_absent (by rw [good]; decide), ?_, ?_, same ▸ clock, State.audioFrame_frame⟩
    · rw [same, audio]
    · rw [same, audio]
  · rw [Audio.send_of_recovering recovering] at audio
    have clock : v.audio.clock = .recovering := by rw [audio]; exact recovering
    have periods : v.audio.goodPeriods = s.audio.goodPeriods := by rw [audio]
    refine ⟨_, exec_audioFrame_of_not_absent (by rw [recovering]; decide), ?_⟩
    by_cases last : 48 ≤ s.audio.goodPeriods + 1
    · have same : (s.audioFrame i0 i1).audio = { v.audio with clock := .good, goodPeriods := 0, faultMs := 0 } := by
        rw [taken, State.countGoodPeriod_of_last clock (periods ▸ last)]
        rfl
      refine ⟨by rw [same, audio]; rfl, by rw [same, audio], fun more => absurd last (by omega), fun _ => ?_, State.audioFrame_frame⟩
      rw [same]
      exact ⟨rfl, rfl⟩
    · have same : (s.audioFrame i0 i1).audio = { v.audio with goodPeriods := v.audio.goodPeriods + 1 } := by
        rw [taken, State.countGoodPeriod_of_more clock (by omega)]
      refine ⟨by rw [same, audio]; rfl, by rw [same, audio], fun _ => ?_, fun more => absurd more (by omega), State.audioFrame_frame⟩
      rw [same]
      exact ⟨clock, congrArg (· + 1) periods⟩

section
variable (i0 i1 : List Int) (s b : State)

theorem State.frameSums_getD {z : Nat} (below : z < 32) :
    (s.frameSums i0 i1).getD z 0 = s.zoneSum (s.mixSignals i0 i1) (callInput i1) z := by
  rw [State.frameSums, State.zoneSums, getD_map_range, if_pos below]

theorem State.watchZone_measureFrame (sums : List Int) {z : Nat} (below : z < 32) : (s.measureFrame sums).watchZone z =
    (s.watchZone z).measure (if s.audio.faulted then 0 else sat24 (sums.getD z 0)) (!s.audio.faulted && sat24 (sums.getD z 0) != sums.getD z 0)
      ((s.zone z).route.isNone || decide (s.zoneLevel z ≤ Config.off)) (decide (0 < (s.zone z).duck) || (s.zone z).targeted) :=
  Table.getD_mapIdx _ _ _ _ _ below

theorem sat24_bne (x : Int) : (sat24 x != x) = decide (x < -8388608 ∨ 8388607 < x) := by
  rw [Bool.eq_iff_iff, bne_iff_ne, decide_eq_true_eq, ne_comm]
  exact ne_clamp_iff (by decide) x

theorem WatchZone.measure_of_enabled {w : WatchZone} (enabled : w.setup.enable = true) (value : Int) (p q r : Bool) :
    w.measure value p q r = { w with
      peak := max w.peak value.natAbs, saturated := w.saturated + (if p then 1 else 0),
      seenUnrouted := w.seenUnrouted || q, seenDucked := w.seenDucked || r } := by
  rw [WatchZone.measure, if_pos enabled]
  cases p <;> rfl

end

/-- A frame measured: what leaves on the slot and whether it was limited, 0 and not limited while the clock is not GOOD (R127). -/
theorem WatchZone.measure_of_audio (w : WatchZone) (c : Audio) (x : Int) (q r : Bool) :
    w.measure (if c.faulted then 0 else sat24 x) (!c.faulted && sat24 x != x) q r =
      if w.setup.enable then { w with
        peak := max w.peak (if c.clock = .good then max (-8388608) (min 8388607 x) else 0).natAbs,
        saturated := w.saturated + (if c.clock = .good ∧ (x < -8388608 ∨ 8388607 < x) then 1 else 0),
        seenUnrouted := w.seenUnrouted || q, seenDucked := w.seenDucked || r }
      else w := by
  by_cases enabled : w.setup.enable = true
  · rw [WatchZone.measure_of_enabled enabled, if_pos enabled, sat24_bne]
    by_cases good : c.clock = .good
    · have sound : c.faulted = false := by rw [Audio.faulted, good]; rfl
      simp only [sound, good, true_and, Bool.not_false, Bool.true_and, decide_eq_true_eq, Bool.false_eq_true, if_false, if_true]
      rfl
    · have faulted : c.faulted = true := bne_iff_ne.mpr good
      simp only [faulted, good, false_and, Bool.not_true, Bool.false_and, Bool.false_eq_true, if_false, if_true]
  · rw [WatchZone.measure, if_neg enabled, if_neg enabled]

/-- Settles O20: the zones' records as the window starts, then as the frame is measured, and the end of a full window. -/
theorem audioFrameMeasuresEveryZone : Obligations.AudioFrameMeasuresEveryZone := by
  intro i0 i1 s present source mix start cleared sum
  obtain ⟨b, begun, taken⟩ := s.audioFrame_eq i0 i1
  have changes : s.startChanges = cleared := rfl
  have zone : ∀ z, z < 32 → b.watchZone z = start z := fun z below =>
    (begun.zone z).trans (if_pos ⟨List.mem_range.mpr below, below⟩)
  have sums : ∀ z, z < 32 → (s.frameSums i0 i1).getD z 0 = sum z := fun z below => by
    have signal : ∀ m, (s.mixSignals i0 i1).getD m 0 = if m < 24 then mix m else 0 := s.mixSignals_getD i0 i1
    rw [State.frameSums_getD _ _ _ below, State.zoneSum_eq]
    simp only [signal] <;> rfl
  have audio := s.measured_audio (i0 := i0) (i1 := i1) b
  have clock : (s.measured i0 i1 b).endFullWindow.audio.clock = s.audio.clock := by rw [audio]; rfl
  have periods : (s.measured i0 i1 b).endFullWindow.audio.goodPeriods = s.audio.goodPeriods := by rw [audio]; rfl
  refine ⟨s.audioFrame i0 i1, s.measured i0 i1 b, _, exec_audioFrame_of_not_absent present, ?frames, ?seen, fun z below => ?zones, begun.record,
    fun m => ?noticed, rfl, rfl, ?frame, rfl, fun good => ?good, fun recovering last => ?last, fun recovering more => ?more⟩
  case frames =>
    change b.watch.frames + 1 = _
    rw [begun.frame]
    rfl
  case seen =>
    change b.watch.faultSeen = _
    rw [begun.frame]
    rfl
  case zones =>
    have zones : b.zone z = s.zone z := by rw [begun.frame]; rfl
    have level : b.zoneLevel z = (s.point (1024 + z)).effective := by rw [begun.frame]; rfl
    have watched : (s.measured i0 i1 b).watchZone z = (start z).measure (if s.audio.faulted then 0 else sat24 (sum z))
        (!s.audio.faulted && sat24 (sum z) != sum z) ((s.zone z).route.isNone || decide ((s.point (1024 + z)).effective ≤ -900))
        (decide (0 < (s.zone z).duck) || (s.zone z).targeted) := by
      refine (State.watchZone_measureFrame _ _ below).trans ?_
      rw [← zone z below, ← sums z below, ← zones, ← level]
      rfl
    have unrouted : ((s.zone z).route.isNone || decide ((s.point (1024 + z)).effective ≤ -900)) =
        decide ((s.zone z).route = none ∨ (s.point (1024 + z)).effective ≤ -900) := by
      rw [Bool.decide_or]
      cases (s.zone z).route <;> rfl
    have ducked : (decide (0 < (s.zone z).duck) || (s.zone z).targeted) =
        decide (0 < (s.zone z).duck ∨ (s.zone z).targeted = true) := by
      rw [Bool.decide_or, Bool.decide_eq_true]
    rw [watched, unrouted, ducked]
    exact WatchZone.measure_of_audio ..
  case noticed =>
    have noticed := begun.noticed m
    simp only [List.isEmpty_iff, changes] at noticed
    exact noticed
  case frame =>
    rw [State.measured, begun.frame]
    rfl
  case good => rw [taken, State.countGoodPeriod_of_good (clock.trans good)]
  case last =>
    rw [exec, execAudioRestored, clock, recovering, taken,
      State.countGoodPeriod_of_last (clock.trans recovering) (periods ▸ last)]
  case more => rw [taken, State.countGoodPeriod_of_more (clock.trans recovering) (periods ▸ more)]

end Machine

end Sys2Proof
end

section
/-! A GO taken, follows that expire, and beats (5.3, 5.5, 5.6). -/

namespace Sys2Proof.Machine

/-! ## A GO taken (R85) -/

theorem LaneState.notify_of_notified (x : LaneState) (ks : List Notice) {k : Notice} (inside : k ∈ ks) :
    (x.notify k).notifyAll ks = x.notifyAll ks := by
  obtain ⟨before, after, rfl⟩ := List.append_of_mem inside
  rw [LaneState.notifyAll_append, LaneState.notifyAll_append, LaneState.notifyAll_notify, LaneState.notifyAll_cons,
    LaneState.notifyAll_cons, LaneState.notify_notify_self]

/-- RUN given to the lanes before it is given once more changes none of them. -/
theorem Noticed.of_checkCompletion {s t : State} {c : Nat} {ks : List Notice} (later : Noticed (s.checkCompletion c) t ks)
    (run : .run ∈ ks) : Noticed s t ks := by
  intro m
  rw [later m]
  rcases s.checkCompletion_noticed c with quiet | told
  · rw [quiet m]
    rfl
  · rw [told m]
    exact LaneState.notify_of_notified _ _ run

/-- The run of a GO at the tail, standby moved on, and the GO recorded: steps 3, 4, 5, 7 and 8 of R85. -/
def State.gone (rec : Cue) (origin : Origin) (s : State) : State := (s.addRun rec origin).recordGo rec origin

section
variable (s : State) (rec : Cue) (origin : Origin)

theorem State.gone_runner : (s.gone rec origin).runner = { s.runner with
    runs := s.runner.runs ++ [newRun rec origin], standby := s.store.nextAfter rec.number,
    lastGo := some ⟨rec.number, origin, s.record.clock⟩ } := rfl

theorem State.gone_record : (s.gone rec origin).record =
    s.record.hand origin.logLane (some rec.number) none (goDetail origin (s.store.nextAfter rec.number)) := rfl

theorem State.gone_noticed : Noticed s (s.gone rec origin) [.standby, .run] :=
  (((Noticed.refl s).of_lanes rfl).noticeAll .standby).noticeAll .run

theorem State.gone_frame : s.gone rec origin = { s with
    lanes := (s.gone rec origin).lanes, runner := (s.gone rec origin).runner, record := (s.gone rec origin).record } := rfl

theorem State.run?_gone (absent : s.run? rec.number = none) (d : Nat) : (s.gone rec origin).run? d =
    if d = rec.number then some (newRun rec origin) else s.run? d := by
  have runs : (s.gone rec origin).run? d = (s.runner.runs ++ [newRun rec origin]).find? fun r => r.cue == d := rfl
  rw [runs, List.find?_append]
  change (s.run? d).or _ = _
  by_cases own : d = rec.number
  · subst own
    rw [absent, if_pos rfl]
    simp [newRun]
  · rw [if_neg own]
    have other : ¬ rec.number = d := fun e => own e.symm
    cases s.run? d <;> simp [newRun, other]

end

theorem State.retire_of_absent {s : State} {c : Nat} (absent : s.run? c = none) (cause : RetireCause) (origin : Origin) :
    s.retire c cause origin = s := by rw [State.retire, absent]

/-- A list that is not full has room for a run of a cue that has none. -/
theorem State.makeRoom_of_few {s : State} {c : Nat} (absent : s.run? c = none) (few : s.runner.runs.length < 16) (origin : Origin) :
    s.makeRoom c origin = s := by
  rw [State.makeRoom, State.retire_of_absent absent]
  cases runs : s.runner.runs with
  | nil => rfl
  | cons r rs =>
    rw [runs] at few
    exact if_neg (Nat.not_le.mpr few)

theorem State.startByCurtain_of_not_curtain {s : State} {rec : Cue} (plain : rec.curtain = false) (origin : Origin) :
    s.startByCurtain rec origin = s := by
  rw [State.startByCurtain, plain]
  rfl

/-- A GO of a cue that is no curtain cue and has a pre-wait, once room has been made. -/
theorem State.takeGo_plain {s t : State} {rec : Cue} {origin : Origin} (room : s.makeRoom rec.number origin = t)
    (plain : rec.curtain = false) (waits : 1 ≤ rec.preWait) : s.takeGo rec origin = t.gone rec origin := by
  rw [State.takeGo, room, State.startByCurtain_of_not_curtain plain, if_neg (by omega)]
  rfl

/-! ## FOLLOW_EXPIRY (R94) -/

/-- A run's follow is over. -/
def Run.unfollowed (r : Run) : Run := { r with followState := .none, followRemaining := 0 }

/-- The follow of a cue's run is over, and the run leaves the list if that ends it. -/
def State.endFollow (c : Nat) (s : State) : State := (s.onRun c Run.unfollowed).checkCompletion c

section
variable {s : State} {c : Nat} {r : Run} (found : s.run? c = some r)
include found

theorem State.run?_endFollow (d : Nat) : (s.endFollow c).run? d =
    if d = c then (if r.state = .active ∧ r.slots = 0 then none else some r.unfollowed) else s.run? d := by
  have ended : ∀ d, (s.onRun c Run.unfollowed).run? d = if d = c then (s.run? d).map Run.unfollowed else s.run? d :=
    fun d => s.run?_onRun c d _ fun _ => rfl
  have own : (s.onRun c Run.unfollowed).run? c = some r.unfollowed := by rw [ended, if_pos rfl, found]; rfl
  have done : r.unfollowed.isDone = decide (r.state = .active ∧ r.slots = 0) := by
    rw [Run.isDone, Bool.decide_and, Bool.and_assoc]
    exact congrArg _ (Bool.and_true _)
  unfold State.endFollow
  by_cases over_ : r.state = .active ∧ r.slots = 0
  · rw [State.checkCompletion_of_done own (done.trans (decide_eq_true over_)), State.run?_dropRun, ended, if_pos over_]
    by_cases same : d = c
    · rw [if_pos same, if_pos same]
    · rw [if_neg same, if_neg same, if_neg same]
  · rw [State.checkCompletion_of_not_done own (done.trans (decide_eq_false over_)), ended, if_neg over_]
    by_cases same : d = c
    · rw [if_pos same, if_pos same, same, found]
      rfl
    · rw [if_neg same, if_neg same]

end

theorem Run.followRuns_eq_true {r : Run} (runs : r.followState = .timing ∨ r.followState = .counting) : r.followRuns = true := by
  rcases runs with e | e <;> simp [Run.followRuns, e]

section
variable {s : State} {c : Nat} {r : Run} (found : s.run? c = some r) (runs : r.followState = .timing ∨ r.followState = .counting)
include found runs

theorem State.expireFollow_void (other : ∀ x, s.store.nextAfter c = some x → s.runner.standby ≠ some x) : (s.expireFollow c).1 =
    ((State.report .follow (some c) none (.followVoid (s.store.nextAfter c)) (s.onRun c Run.unfollowed)).checkCompletion c).noticeAll .run := by
  rw [State.expireFollow, found]
  simp only [Run.followRuns_eq_true runs, if_true]
  split
  · next rec at_ =>
    rw [if_neg]
    · rfl
    · intro target
      obtain ⟨x, standby, held⟩ := Option.bind_eq_some_iff.mp at_
      exact other _ target (standby.trans (congrArg some (Store.cue?_number _ _ _ held).symm))
  · rfl

theorem State.expireFollow_goes {x : Nat} {rec : Cue} (next : s.store.nextAfter c = some x) (standby : s.runner.standby = some x)
    (held : s.store.cue? x = some rec) : (s.expireFollow c).1 = (s.endFollow c).takeGo rec .follow := by
  have at_ : s.standbyCue = some rec := by rw [State.standbyCue, standby]; exact held
  rw [State.expireFollow, found, at_]
  simp only [Run.followRuns_eq_true runs, if_true, next, Store.cue?_number _ _ _ held]
  rfl

end

/-- An event handed to the record is neither read nor written by a run's completion. -/
theorem State.checkCompletion_report (s : State) (c : Nat) (lane : LogLane) (cue zone : Option Nat) (d : Detail) :
    (s.report lane cue zone d).checkCompletion c = (s.checkCompletion c).report lane cue zone d := by
  have found : (s.report lane cue zone d).run? c = s.run? c := rfl
  unfold State.checkCompletion
  rw [found]
  split
  · split <;> rfl
  · rfl

theorem State.endFollow_runsAlone (s : State) (c : Nat) : RunsAlone s (s.endFollow c) :=
  RunsAlone.trans (t := s.onRun c Run.unfollowed) ⟨rfl⟩ (State.checkCompletion_runsAlone _ c)

theorem State.endFollow_shrinks (s : State) (c : Nat) : RunsShrink s (s.endFollow c) :=
  (s.onRun_shrinks c (f := Run.unfollowed) fun _ => rfl).trans (State.checkCompletion_shrinks (s.onRun c Run.unfollowed) c)

theorem State.endFollow_frame (s : State) (c : Nat) : s.endFollow c = { s with
    lanes := (s.endFollow c).lanes, runner := (s.endFollow c).runner } := by
  unfold State.endFollow
  rcases (s.onRun c Run.unfollowed).checkCompletion_cases c with e | ⟨_, _, _, e⟩ <;> rw [e] <;> rfl

/-- Settles O38. -/
theorem followExpiryGoesOrIsVoid : Obligations.FollowExpiryGoesOrIsVoid := by
  intro s c r found runs
  refine ⟨fun other => ?_, fun x rec next standby held waits plain absent few => ?_⟩
  · have done : exec (.followExpiry c) s =
        .next (((s.endFollow c).report .follow (some c) none (.followVoid (s.store.nextAfter c))).noticeAll .run) := by
      rw [exec, execFollowExpiry, State.expireFollow_void found runs other, State.checkCompletion_report]
      rfl
    refine ⟨_, done, ?_, (State.run?_endFollow found c).trans (if_pos rfl), fun d ne => (State.run?_endFollow found d).trans (if_neg ne),
      (s.endFollow_runsAlone c).runner, ?_, ?_⟩
    · rw [s.endFollow_frame c]
      rfl
    · refine Noticed.of_checkCompletion (s := s.onRun c Run.unfollowed) (c := c) ?_ List.mem_cons_self
      exact ((Noticed.refl _).of_lanes rfl).noticeAll .run
    · rw [s.endFollow_frame c]
      rfl
  · have number : rec.number = x := Store.cue?_number _ _ _ held
    have ne : x ≠ c := fun e => by
      rw [e, found] at absent
      cases absent
    have free : (s.endFollow c).run? rec.number = none := by
      rw [number, State.run?_endFollow found, if_neg ne, absent]
    have few' : (s.endFollow c).runner.runs.length < 16 := by
      have fewer : (s.endFollow c).runCues.length ≤ s.runCues.length := (s.endFollow_shrinks c).cues.length_le
      rw [State.runCues, State.runCues, List.length_map, List.length_map] at fewer
      exact Nat.lt_of_le_of_lt fewer few
    have done : exec (.followExpiry c) s = .next ((s.endFollow c).gone rec .follow) := by
      rw [exec, execFollowExpiry, State.expireFollow_goes found runs next standby held,
        State.takeGo_plain (State.makeRoom_of_few free few' _) plain waits]
    have run := State.run?_gone (s.endFollow c) rec .follow free
    rw [number] at run
    refine ⟨_, done, (run x).trans ((if_pos rfl).trans ?_), (run c).trans ((if_neg ne.symm).trans ?_), fun d ne₁ ne₂ => ?_, ?_, ?_, ?_, ?_, ?_⟩
    · subst number
      rfl
    · exact (State.run?_endFollow found c).trans (if_pos rfl)
    · exact (run d).trans ((if_neg ne₂).trans ((State.run?_endFollow found d).trans (if_neg ne₁)))
    · rw [State.gone_runner, ← number]
      simp [newRun]
    · rw [State.gone_runner, (s.endFollow_runsAlone c).runner, number, s.endFollow_frame c]
    · rw [State.gone_record, number, s.endFollow_frame c]
      rfl
    · refine Noticed.of_checkCompletion (s := s.onRun c Run.unfollowed) (c := c) ?_ (List.mem_cons_of_mem _ List.mem_cons_self)
      exact State.gone_noticed (s.endFollow c) rec .follow
    · rw [State.gone_frame, s.endFollow_frame c]

/-! ## BEAT (R96) -/

/-- A beat counted: the counter and the time of the last counted beat. -/
def State.beaten (s : State) : State :=
  { s with runner := { s.runner with
    beatCounter := (if s.runner.beatCounter % 65536 = 65535 then 0 else s.runner.beatCounter % 65536 + 1),
    lastBeat := some s.timeBase } }

theorem exec_beat_early {s : State} {b : Nat} (last : s.runner.lastBeat = some b) (early : s.timeBase < b + 20) :
    exec .beat s = .next s := by
  have not_ : ¬ s.beatCounts = true := by
    rw [State.beatCounts, last]
    simpa [Config.beatSpacing] using early
  rw [exec, execBeat, if_neg not_]

theorem exec_beat_counted {s : State} (late : ∀ b, s.runner.lastBeat = some b → b + 20 ≤ s.timeBase) :
    exec .beat s = .next (takeRuns (fun c s => s.beatRun c) (s.runner.runs.map (·.cue)) s.beaten) := by
  have counts : s.beatCounts = true := by
    unfold State.beatCounts
    cases last : s.runner.lastBeat with
    | none => rfl
    | some b => exact decide_eq_true (late b last)
  have counter : (s.runner.beatCounter + 1) % 65536 =
      if s.runner.beatCounter % 65536 = 65535 then 0 else s.runner.beatCounter % 65536 + 1 := by split <;> omega
  rw [exec, execBeat, if_pos counts]
  dsimp only
  rw [counter]
  rfl

/-- Runs taken in order by `f`, `gone` the cues GOne so far. -/
def takeFrom (f : Nat → State → State × Option Nat) : List Nat → List Nat → State → State
  | [], _, s => s
  | c :: cs, gone, s => if c ∈ gone then takeFrom f cs gone s else takeFrom f cs ((f c s).2.toList ++ gone) (f c s).1

theorem takeRuns_eq (f : Nat → State → State × Option Nat) (cs : List Nat) (s : State) : takeRuns f cs s = takeFrom f cs [] s := by
  unfold takeRuns
  generalize ([] : List Nat) = gone
  induction cs generalizing s gone with
  | nil => rfl
  | cons c cs ih =>
    rw [List.foldl_cons, takeFrom]
    by_cases passed : c ∈ gone
    · rw [if_pos passed, ← ih, if_pos (by simpa using passed)]
    · rw [if_neg passed, ← ih, if_neg (by simpa using passed)]

/-- Taking the runs one by one is what the beat does to them in list order. -/
theorem beatTakes_takeFrom (cs gone : List Nat) (s : State) : BeatTakes cs gone s (takeFrom (fun c s => s.beatRun c) cs gone s) := by
  induction cs generalizing gone s with
  | nil => rfl
  | cons c cs ih =>
    rw [BeatTakes, takeFrom]
    cases found : s.run? c with
    | none =>
      have stays : s.beatRun c = (s, none) := by rw [State.beatRun, found]
      rw [stays]
      exact (ite_self (takeFrom (fun c s => s.beatRun c) cs gone s)).symm ▸ ih gone s
    | some r =>
      dsimp only
      by_cases passed : c ∈ gone
      · rw [if_pos (.inl passed), if_pos passed]
        exact ih gone s
      rw [if_neg passed]
      by_cases counting : r.followState = .counting
      · rw [if_neg (not_or.mpr ⟨passed, not_not.mpr counting⟩)]
        by_cases more : 2 ≤ r.followRemaining
        · have fewer : s.beatRun c = (s.onRun c fun r => { r with followRemaining := r.followRemaining - 1 }, none) := by
            rw [State.beatRun, found]
            exact (if_pos counting).trans (if_neg (by omega))
          rw [if_pos more, fewer]
          exact ih gone _
        · have expires : s.beatRun c = s.expireFollow c := by
            rw [State.beatRun, found]
            exact (if_pos counting).trans (if_pos (by omega))
          rw [if_neg more, expires]
          refine ⟨_, rfl, ?_⟩
          rw [State.expireFollow_target s c r found (Run.followRuns_eq_true (.inr counting))]
          have goes : (if s.store.nextAfter c = s.runner.standby then s.runner.standby else none).toList =
              if s.store.nextAfter c = s.runner.standby then s.runner.standby.toList else [] := by split <;> rfl
          rw [goes]
          exact ih _ _
      · have stays : s.beatRun c = (s, none) := by
          rw [State.beatRun, found]
          exact if_neg counting
        rw [if_pos (.inr counting), stays]
        exact ih gone s

/-- One counted beat of a run with more than one beat left (R96). -/
def Run.beaten (r : Run) : Run := if r.followState = .counting then { r with followRemaining := r.followRemaining - 1 } else r

theorem Run.beaten_cue (r : Run) : r.beaten.cue = r.cue := by
  unfold Run.beaten
  split <;> rfl

/-- Where no follow is at its last beat, each run of a list with no cue twice is counted for itself. -/
theorem takeFrom_beatRun {before after : List Run} {s : State} (runs : s.runner.runs = before ++ after)
    (distinct : ((before ++ after).map (·.cue)).Nodup) (more : ∀ r ∈ after, r.followState = .counting → 2 ≤ r.followRemaining) :
    takeFrom (fun c s => s.beatRun c) (after.map (·.cue)) [] s =
      { s with runner := { s.runner with runs := before ++ after.map Run.beaten } } := by
  induction after generalizing before s with
  | nil =>
    rw [List.append_nil] at runs
    rw [List.map_nil, List.map_nil, List.append_nil, ← runs]
    rfl
  | cons r after ih =>
    obtain ⟨here, later⟩ := List.forall_mem_cons.mp more
    have elsewhere : (∀ x ∈ before, x.cue ≠ r.cue) ∧ ∀ x ∈ after, x.cue ≠ r.cue := by
      rw [List.map_append, List.map_cons, List.nodup_append] at distinct
      obtain ⟨_, tail, apart⟩ := distinct
      exact ⟨fun x mem e => apart _ (List.mem_map_of_mem mem) _ List.mem_cons_self e,
        fun x mem e => (List.nodup_cons.mp tail).1 (List.mem_map.mpr ⟨x, mem, e⟩)⟩
    obtain ⟨earlier, others⟩ := elsewhere
    have found : s.run? r.cue = some r := by
      rw [State.run?, runs, List.find?_append, List.find?_eq_none.mpr fun x mem => by simpa using earlier x mem]
      simp
    have one : s.beatRun r.cue = ({ s with runner := { s.runner with runs := before ++ r.beaten :: after } }, none) := by
      rw [State.beatRun, found]
      by_cases counting : r.followState = .counting
      · refine (if_pos counting).trans ((if_neg (Nat.not_le.mpr (here counting))).trans ?_)
        have keeps : ∀ xs : List Run, (∀ x ∈ xs, x.cue ≠ r.cue) →
            (xs.map fun x => if x.cue = r.cue then { x with followRemaining := x.followRemaining - 1 } else x) = xs :=
          fun xs apart => (List.map_congr_left fun x mem => if_neg (apart x mem)).trans (List.map_id _)
        rw [State.onRun, runs, List.map_append, List.map_cons, keeps before earlier, keeps after others, if_pos rfl, Run.beaten,
          if_pos counting]
      · refine (if_neg counting).trans ?_
        rw [Run.beaten, if_neg counting, ← runs]
    have rest := ih (before := before ++ [r.beaten]) (s := { s with runner := { s.runner with runs := before ++ r.beaten :: after } })
      (by simp) (by simpa [Run.beaten_cue] using distinct) later
    rw [List.map_cons, takeFrom, if_neg List.not_mem_nil, one]
    refine rest.trans ?_
    rw [List.map_cons, List.append_assoc]
    rfl

/-- Settles O39. -/
theorem beatsAreSpacedAndCounted : Obligations.BeatsAreSpacedAndCounted := by
  intro s
  refine ⟨fun b last early => exec_beat_early last early, fun late => ⟨fun distinct more => ?_, fun r single counting last => ?_, ?_⟩⟩
  · rw [exec_beat_counted late, takeRuns_eq, takeFrom_beatRun (s := s.beaten) (before := []) rfl distinct more]
    rfl
  · have found : s.beaten.run? r.cue = some r := by
      change s.runner.runs.find? _ = _
      rw [single]
      simp
    have expires : s.beaten.beatRun r.cue = s.beaten.expireFollow r.cue := by
      rw [State.beatRun, found]
      exact (if_pos counting).trans (if_pos last.le)
    rw [exec_beat_counted late, takeRuns_eq, single, List.map_cons, takeFrom, if_neg List.not_mem_nil, expires]
    rfl
  · exact ⟨_, exec_beat_counted late, takeRuns_eq (fun c s => s.beatRun c) .. ▸ beatTakes_takeFrom ..⟩

end Sys2Proof.Machine
end

section
/-! A run's actions that are whole at once, and how the run goes on once its actions are handed over (5.4, 5.5). -/

namespace Sys2Proof.Machine

/-! ## Tables that read alike -/

theorem State.points_of_read {s t : State} (same : ∀ p, t.point p = s.point p) : t.points = s.points :=
  Table.ext_getD _ _ _ fun p _ => same p

theorem State.zones_of_read {s t : State} (same : ∀ z, t.zone z = s.zone z) : t.zones = s.zones :=
  Table.ext_getD _ _ _ fun z _ => same z

theorem State.masks_of_read {s t : State} (same : ∀ m, t.masks.getD m false = s.masks.getD m false) : t.masks = s.masks :=
  Table.ext_getD _ _ _ fun m _ => same m

theorem State.lines_of_read {s t : State} (same : ∀ n, t.line n = s.line n) : t.runner.lines = s.runner.lines :=
  Table.ext_getD _ _ _ fun n _ => same n

theorem clampBase_of_range {x : Int} (low : Config.off ≤ x) (high : x ≤ Config.maxLevel) : clampBase x = x := by
  have low' : (-900 : Int) ≤ x := low
  have high' : x ≤ (120 : Int) := high
  show max (-900) (min 120 x) = x
  omega

/-! ## Actions whole at once (R90) -/

/-- What a list of actions, each whole at once, does to the engine (R90). -/
structure ActedAtOnce (s t : State) (acts : List Action) : Prop where
  zone : ∀ z, t.zone z = { s.zone z with route := routeAfter z (s.zone z).route acts }
  mask : ∀ m, t.masks.getD m false = maskAfter m (s.masks.getD m false) acts
  line : ∀ n, t.line n = lineAfter n (s.line n) acts
  point : ∀ p, t.point p = pointAfter s.store p (s.point p) acts
  frame : t = { s with
    points := t.points, masks := t.masks, zones := t.zones, runner := { s.runner with lines := t.runner.lines } }

namespace ActedAtOnce

theorem refl (s : State) : ActedAtOnce s s [] := ⟨fun _ => rfl, fun _ => rfl, fun _ => rfl, fun _ => rfl, rfl⟩

section
variable {s t : State} {acts : List Action} (acted : ActedAtOnce s t acts)
include acted

theorem store : t.store = s.store := by rw [acted.frame]

theorem lanes : t.lanes = s.lanes := by rw [acted.frame]

theorem slots : t.slots = s.slots := by rw [acted.frame]

theorem slot (k : Nat) : t.slot k = s.slot k := by rw [State.slot, acted.slots]; rfl

theorem runner : t.runner = { s.runner with lines := t.runner.lines } := congrArg State.runner acted.frame

theorem run? (c : Nat) : t.run? c = s.run? c := by rw [State.run?, acted.runner]; rfl

theorem poolFree : t.poolFree = s.poolFree := by rw [State.poolFree, State.poolUsed, State.usedSlots, acted.slots]; rfl

theorem membership (p : Nat) : (t.point p).membership = (s.point p).membership := by
  rw [acted.point, pointAfter_membership]

theorem freeSlot? : t.freeSlot? = s.freeSlot? := by
  unfold State.freeSlot?
  exact congrArg (fun f => (List.range Config.slots).find? fun k => (f k).isNone) (funext acted.slot)

theorem atOnce {a : Action} (once : a.AtOnce s) : a.AtOnce t := by
  obtain ⟨free, whole⟩ := once
  refine ⟨fun p named => ?_, whole⟩
  rw [acted.store] at named
  rw [acted.membership]
  exact free p named

theorem trans {u : State} {later : List Action} (next : ActedAtOnce t u later) : ActedAtOnce s u (acts ++ later) where
  zone z := by rw [next.zone, acted.zone, routeAfter_append]
  mask m := by rw [next.mask, acted.mask, maskAfter_append]
  line n := by rw [next.line, acted.line, lineAfter_append]
  point p := by rw [next.point, acted.point, acted.store, pointAfter_append]
  frame := by
    have first := acted.frame
    have second := next.frame
    generalize t.points = points, t.masks = masks, t.zones = zones, t.runner.lines = lines at first
    subst first
    exact second

end

end ActedAtOnce

theorem routeAfter_route (y z : Nat) (was m : Option Nat) : routeAfter y was [.route z m] = if z = y then m else was := rfl

theorem maskAfter_mask (k m : Nat) (was on : Bool) : maskAfter k was [.mask m on] = if m = k then on else was := rfl

theorem lineAfter_trigger (k n : Nat) (was : LineState) (mode : TriggerMode) :
    lineAfter k was [.trigger n mode] = if n = k then mode.lineState else was := by
  cases mode <;> rfl

section
variable (s : State) (owner : Option Nat) (cue index : Nat)

theorem State.levelAction_atOnce {g : ActTarget} {v : Int} (cv : Curve) (clear : Bool)
    (free : ∀ p ∈ s.store.resolve g, (s.point p).membership = none) :
    s.levelAction owner cue index g v 0 cv clear = s.onPoints (s.store.resolve g) (Point.jump v clear) := by
  unfold State.levelAction
  dsimp only
  rw [State.leaveAll_of_free _ _ free]
  cases s.store.resolve g with
  | nil => rfl
  | cons p ps => rfl

theorem Point.jump_idem (v : Int) (clear : Bool) (q : Point) : (q.jump v clear).jump v clear = q.jump v clear := by
  cases clear <;> rfl

/-- One action whole at once does what its kind says. -/
theorem State.handAction_atOnce {a : Action} (once : a.AtOnce s) : ActedAtOnce s (s.handAction owner cue index a) [a] := by
  obtain ⟨free, whole⟩ := once
  cases a with
  | level g v time cv clear =>
    obtain ⟨rfl, low, high⟩ := whole
    have levels : s.handAction owner cue index (.level g v 0 cv clear) = s.onPoints (s.store.resolve g) (Point.jump v clear) :=
      s.levelAction_atOnce owner cue index cv clear fun p named => (free p named).2
    rw [levels]
    refine ⟨fun z => ?_, fun m => ?_, fun n => ?_, fun p => ?_, ?_⟩
    · rw [State.zone, State.onPoints_zones]; rfl
    · rw [State.onPoints_masks]; rfl
    · rw [State.line, State.onPoints_runner]; rfl
    · have jumped : pointAfter s.store p (s.point p) [.level g v 0 cv clear] =
          if p ∈ s.store.resolve g then (s.point p).jump v clear else s.point p := by
        rw [Point.jump, clampBase_of_range low high]
        rfl
      rw [jumped]
      by_cases below : p < Config.points
      · exact State.point_onPoints_of_idem _ (Point.jump_idem v clear) s p below
      · have out : p ∉ s.store.resolve g := fun named => below (free p named).1
        rw [if_neg out, State.point_of_le _ (Nat.le_of_not_lt below),
          State.point_of_le _ (Nat.le_of_not_lt below)]
    · apply State.ext_fields <;> simp
  | route z m =>
    refine ⟨fun y => ?_, fun _ => rfl, fun _ => rfl, fun _ => rfl, rfl⟩
    rw [routeAfter_route]
    refine (State.zone_onZone s z y _).trans ?_
    by_cases same : z = y
    · rw [if_pos ⟨same.symm, same ▸ whole⟩, if_pos same]
    · rw [if_neg fun h => same h.1.symm, if_neg same]
  | mask m on =>
    refine ⟨fun _ => rfl, fun k => ?_, fun _ => rfl, fun _ => rfl, rfl⟩
    rw [maskAfter_mask]
    refine (State.mask_setMask s m k on).trans ?_
    by_cases same : m = k
    · rw [if_pos ⟨same.symm, same ▸ whole⟩, if_pos same]
    · rw [if_neg fun h => same h.1.symm, if_neg same]
  | trigger n mode =>
    refine ⟨fun _ => rfl, fun _ => rfl, fun k => ?_, fun _ => rfl, rfl⟩
    rw [lineAfter_trigger]
    refine (State.line_setLine s n k _).trans ?_
    by_cases same : n = k
    · rw [if_pos ⟨same.symm, same ▸ whole⟩, if_pos same]
    · rw [if_neg fun h => same h.1.symm, if_neg same]
  | halt g =>
    have stays : s.handAction owner cue index (.halt g) = s :=
      State.leaveAll_of_free _ _ fun p named => (free p named).2
    rw [stays]
    exact ⟨fun _ => rfl, fun _ => rfl, fun _ => rfl, fun _ => rfl, rfl⟩

/-- Actions whole at once, handed over in order, do what their list says. -/
theorem handActions_atOnce {acts : List Action} (once : ∀ a ∈ acts, a.AtOnce s) :
    ActedAtOnce s (handActions owner cue index acts s) acts := by
  induction acts generalizing s index with
  | nil => exact .refl s
  | cons a as ih =>
    have first := s.handAction_atOnce owner cue index (once a List.mem_cons_self)
    exact first.trans (ih _ _ fun b mem => first.atOnce (once b (List.mem_cons_of_mem a mem)))

end

/-! ## The run goes on (R92, R93) -/

/-- The lanes are alike once RUN is added to each. -/
structure RunTold (s t : State) : Prop where
  alike : ∀ m, (t.lanes.get m).notify .run = (s.lanes.get m).notify .run

namespace RunTold

theorem of_lanes {s t : State} (e : t.lanes = s.lanes) : RunTold s t := ⟨fun _ => by rw [e]⟩

theorem trans {s t u : State} (h : RunTold s t) (g : RunTold t u) : RunTold s u := ⟨fun m => (g.alike m).trans (h.alike m)⟩

theorem checkCompletion (s : State) (c : Nat) : RunTold s (s.checkCompletion c) := by
  rcases s.checkCompletion_cases c with e | ⟨_, _, _, e⟩
  · rw [e]
    exact .of_lanes rfl
  · rw [e]
    exact ⟨fun m => (congrArg (·.notify .run) (State.lane_noticeAll _ .run m)).trans (LaneState.notify_notify_self _ _)⟩

theorem noticed {s t : State} (told : RunTold s t) : Noticed s (t.noticeAll .run) [.run] := fun m =>
  (State.lane_noticeAll t .run m).trans (told.alike m)

end RunTold

/-- A dispatch once its actions are handed over: the run goes on, and every lane is told (R90, R92, R93). -/
def State.finishDispatch (c : Nat) (s : State) : State := ((s.onRun c Run.dispatched).checkCompletion c).noticeAll .run

theorem exec_preWaitEnd_dispatch {s : State} {c : Nat} {r : Run} {rec : Cue} (found : s.run? c = some r)
    (waits : r.state = .preWait) (held : s.store.cue? c = some rec) :
    exec (.preWaitEnd c) s = .next ((handActions (some c) c 0 rec.actions s).finishDispatch c) := by
  have acts : s.actionsOf c = rec.actions := by rw [State.actionsOf, held]; rfl
  rw [exec_preWaitEnd, State.dispatchDue, found]
  dsimp only
  rw [if_pos waits, State.dispatch, acts]
  rfl

section
variable (h : State) (c : Nat)

theorem State.finishDispatch_noticed {s : State} (told : RunTold s h) : Noticed s (h.finishDispatch c) [.run] :=
  ((told.trans (t := h) (.of_lanes (t := h.onRun c Run.dispatched) rfl)).trans (.checkCompletion _ c)).noticed

theorem State.finishDispatch_runsAlone : RunsAlone h (h.finishDispatch c) :=
  (RunsAlone.trans (t := h.onRun c Run.dispatched) ⟨rfl⟩ (State.checkCompletion_runsAlone _ c)).trans (.of_runner rfl)

theorem State.finishDispatch_frame : h.finishDispatch c = { h with
    lanes := (h.finishDispatch c).lanes, runner := (h.finishDispatch c).runner } := by
  unfold State.finishDispatch
  rcases (h.onRun c Run.dispatched).checkCompletion_cases c with e | ⟨_, _, _, e⟩ <;> rw [e] <;> rfl

theorem State.run?_finishDispatch_other {d : Nat} (other : d ≠ c) : (h.finishDispatch c).run? d = h.run? d := by
  have dispatched : (h.onRun c Run.dispatched).run? d = h.run? d := by
    rw [State.run?_onRun _ _ _ _ Run.dispatched_cue, if_neg other]
  change ((h.onRun c Run.dispatched).checkCompletion c).run? d = _
  rcases (h.onRun c Run.dispatched).checkCompletion_cases c with e | ⟨_, _, _, e⟩
  · rw [e, dispatched]
  · rw [e, State.run?_dropRun, if_neg other, dispatched]

variable {h c} {x : Run} (found : h.run? c = some x)
include found

theorem State.run?_onRun_dispatched : (h.onRun c Run.dispatched).run? c = some x.dispatched := by
  rw [State.run?_onRun _ _ _ _ Run.dispatched_cue, if_pos rfl, found]
  rfl

theorem State.run?_finishDispatch_stays (stays : x.dispatched.isDone = false) : (h.finishDispatch c).run? c = some x.dispatched := by
  change ((h.onRun c Run.dispatched).checkCompletion c).run? c = _
  rw [State.checkCompletion_of_not_done (State.run?_onRun_dispatched found) stays, State.run?_onRun_dispatched found]

theorem State.run?_finishDispatch_leaves (done : x.dispatched.isDone = true) : (h.finishDispatch c).run? c = none := by
  change ((h.onRun c Run.dispatched).checkCompletion c).run? c = _
  rw [State.checkCompletion_of_done (State.run?_onRun_dispatched found) done, State.run?_dropRun, if_pos rfl]

theorem State.run?_finishDispatch_none (plain : x.follow = .none) (idle : x.followState = .none) : (h.finishDispatch c).run? c =
    if x.slots = 0 then none else some { x with state := .active, preWait := 0 } := by
  have active : x.dispatched = { x with state := .active, preWait := 0 } := by
    unfold Run.dispatched
    rw [plain]
  by_cases none_ : x.slots = 0
  · rw [if_pos none_, State.run?_finishDispatch_leaves found]
    rw [active]
    simp [Run.isDone, none_, idle]
  · rw [if_neg none_, State.run?_finishDispatch_stays found, active]
    rw [active]
    simp [Run.isDone, none_]

theorem State.run?_finishDispatch_afterStart {d : Nat} (start : x.follow = .afterStart d) : (h.finishDispatch c).run? c =
    some { x with state := .active, preWait := 0, followState := .timing, followRemaining := d } := by
  have timing : x.dispatched = { x with state := .active, preWait := 0, followState := .timing, followRemaining := d } := by
    unfold Run.dispatched
    rw [start]
  rw [State.run?_finishDispatch_stays found, timing]
  rw [timing]
  simp [Run.isDone]

theorem State.run?_finishDispatch_afterEnd {d : Nat} (end_ : x.follow = .afterEnd d) : (h.finishDispatch c).run? c =
    if x.slots = 0 then some { x with state := .active, preWait := 0, followState := .timing, followRemaining := d }
    else some { x with state := .active, preWait := 0, followState := .waitingEnd, followRemaining := 0 } := by
  by_cases none_ : x.slots = 0
  · have timing : x.dispatched = { x with state := .active, preWait := 0, followState := .timing, followRemaining := d } := by
      unfold Run.dispatched
      rw [end_]
      exact if_pos none_
    rw [if_pos none_, State.run?_finishDispatch_stays found, timing]
    rw [timing]
    simp [Run.isDone]
  · have waiting : x.dispatched = { x with state := .active, preWait := 0, followState := .waitingEnd, followRemaining := 0 } := by
      unfold Run.dispatched
      rw [end_]
      exact if_neg none_
    rw [if_neg none_, State.run?_finishDispatch_stays found, waiting]
    rw [waiting]
    simp [Run.isDone]

theorem State.run?_finishDispatch_beats {n : Nat} (beats : x.follow = .beats n) (counting : x.followState = .counting) :
    (h.finishDispatch c).run? c = some { x with state := .active, preWait := 0 } := by
  have active : x.dispatched = { x with state := .active, preWait := 0 } := by
    unfold Run.dispatched
    rw [beats]
  rw [State.run?_finishDispatch_stays found, active]
  rw [active]
  simp [Run.isDone, counting]

end

/-- A run that its actions left with no slot goes on as its follow says, where they changed no more of it than a follow that
waited for cue end (R92, R93). -/
theorem RunDispatched.of_finish {s h : State} {c : Nat} {r x : Run} (told : RunTold s h)
    (runner : h.runner = { s.runner with runs := h.runner.runs, lines := h.runner.lines })
    (others : ∀ d, d ≠ c → h.run? d = s.run? d) (found : h.run? c = some x) (no_slot : x.slots = 0)
    (same : x = { r with followState := x.followState, followRemaining := x.followRemaining })
    (kept : r.followState ≠ .waitingEnd → x = r) : RunDispatched s (h.finishDispatch c) c r := by
  have alone := (h.finishDispatch_runsAlone c).runner
  have follow : x.follow = r.follow := (congrArg Run.follow same :)
  refine ⟨h.finishDispatch_noticed c told, fun d other => (h.run?_finishDispatch_other c other).trans (others d other), ?_,
    fun plain idle => ?_, fun d waits => ?_, fun n beats counting => ?_⟩
  · rw [alone, runner]
  · rw [State.run?_finishDispatch_none found (follow.trans plain) (kept (by rw [idle]; decide) ▸ idle), if_pos no_slot]
  · rcases waits with start | end_
    · rw [State.run?_finishDispatch_afterStart found (follow.trans start), same]
    · rw [State.run?_finishDispatch_afterEnd found (follow.trans end_), if_pos no_slot, same]
  · have unchanged := kept (by rw [counting]; decide)
    subst unchanged
    exact State.run?_finishDispatch_beats found beats counting

/-! ## PRE_WAIT_END with actions whole at once (R90) -/

section
variable {s : State} {c : Nat} {r : Run} {rec : Cue} (found : s.run? c = some r) (waits : r.state = .preWait) (no_slot : r.slots = 0)
  (held : s.store.cue? c = some rec)
include found waits no_slot held

theorem exec_preWaitEnd_atOnce (once : ∀ a ∈ rec.actions, a.AtOnce s) :
    ∃ h, ActedAtOnce s h rec.actions ∧ exec (.preWaitEnd c) s = .next (h.finishDispatch c) ∧ RunDispatched s (h.finishDispatch c) c r := by
  have acted := handActions_atOnce s (some c) c 0 once
  refine ⟨_, acted, exec_preWaitEnd_dispatch found waits held, .of_finish (x := r) (.of_lanes acted.lanes) ?_
    (fun d _ => acted.run? d) ((acted.run? c).trans found) no_slot rfl fun _ => rfl⟩
  rw [acted.runner]

/-- Actions whole at once: the state that PRE_WAIT_END leaves. -/
theorem exec_preWaitEnd_acts (once : ∀ a ∈ rec.actions, a.AtOnce s) :
    ∃ t, exec (.preWaitEnd c) s = .next t ∧ RunDispatched s t c r ∧
      ((∀ z, t.zone z = { s.zone z with route := routeAfter z (s.zone z).route rec.actions }) ∧
        (∀ m, t.masks.getD m false = maskAfter m (s.masks.getD m false) rec.actions) ∧
        ∀ n, t.line n = lineAfter n (s.line n) rec.actions) ∧
      (∀ p, t.point p = pointAfter s.store p (s.point p) rec.actions) ∧
      t = { s with lanes := t.lanes, points := t.points, masks := t.masks, zones := t.zones, runner := t.runner } := by
  obtain ⟨h, acted, done, dispatched⟩ := exec_preWaitEnd_atOnce found waits no_slot held once
  have frame := h.finishDispatch_frame c
  have lines : (h.finishDispatch c).runner.lines = h.runner.lines := (h.finishDispatch_runsAlone c).lines
  have zones := congrArg State.zones frame
  have masks := congrArg State.masks frame
  have points := congrArg State.points frame
  refine ⟨_, done, dispatched, ⟨fun z => ?_, fun m => ?_, fun n => ?_⟩, fun p => ?_, ?_⟩
  · rw [State.zone, zones]; exact acted.zone z
  · rw [masks]; exact acted.mask m
  · rw [State.line, lines]; exact acted.line n
  · rw [State.point, points]; exact acted.point p
  · rw [frame]
    have before := acted.frame
    generalize h.finishDispatch c = t
    generalize h.points = points, h.masks = masks, h.zones = zones, h.runner.lines = lines at before
    subst before
    rfl

end

end Sys2Proof.Machine
end

section
/-! PRE_WAIT_END with actions that are whole at once (5.4). -/

namespace Sys2Proof.Machine

theorem Action.AtOnce.route {s : State} {z : Nat} (m : Option Nat) (below : z < 32) : (Action.route z m).AtOnce s :=
  ⟨nofun, below⟩

theorem Action.AtOnce.mask {s : State} {m : Nat} (on : Bool) (below : m < 24) : (Action.mask m on).AtOnce s := ⟨nofun, below⟩

theorem Action.AtOnce.trigger {s : State} {n : Nat} (mode : TriggerMode) (below : n < 16) : (Action.trigger n mode).AtOnce s :=
  ⟨nofun, below⟩

theorem Store.resolve_point (st : Store) {p : Nat} (below : p < 1056) : st.resolve (.point p) = [p] := if_pos below

theorem Action.AtOnce.level_point {s : State} {p : Nat} {v : Int} (cv : Curve) (clear : Bool) (below : p < 1056)
    (free : (s.point p).membership = none) (low : -900 ≤ v) (high : v ≤ 120) : (Action.level (.point p) v 0 cv clear).AtOnce s := by
  refine ⟨fun q named => ?_, rfl, low, high⟩
  rw [show s.store.pointsNamed (.level (.point p) v 0 cv clear) = [p] from s.store.resolve_point below, List.mem_singleton] at named
  exact named ▸ ⟨below, free⟩

/-- Settles O35: each list of actions is whole at once, and what it leaves unread stands as it was. -/
theorem preWaitEndDispatchesTheActions : Obligations.PreWaitEndDispatchesTheActions := by
  intro s c r rec found waits no_slot held
  have acts := exec_preWaitEnd_acts found waits no_slot held
  refine ⟨fun list => ?_, fun z m list below => ?_, fun z m m' list below => ?_, fun m on list below => ?_,
    fun n mode list below => ?_, fun p v cv clear list below free low high => ?_⟩ <;> rw [list] at acts
  · obtain ⟨t, done, run, ⟨zones, masks, lines⟩, points, frame⟩ := acts nofun
    refine ⟨t, done, run, frame.trans ?_, State.lines_of_read lines⟩
    rw [State.points_of_read points, State.zones_of_read zones, State.masks_of_read masks]
  · obtain ⟨t, done, run, ⟨zones, masks, lines⟩, points, frame⟩ := acts (List.forall_mem_singleton.mpr (.route m below))
    refine ⟨t, done, run, fun k => ?_, frame.trans ?_, State.lines_of_read lines⟩
    · rw [zones, routeAfter_route]
      by_cases same : k = z
      · rw [if_pos same, if_pos same.symm]
      · rw [if_neg same, if_neg (Ne.symm same)]
    · rw [State.points_of_read points, State.masks_of_read masks]
  · obtain ⟨t, done, run, ⟨zones, masks, lines⟩, points, frame⟩ :=
      acts (List.forall_mem_cons.mpr ⟨.route m below, List.forall_mem_singleton.mpr (.route m' below)⟩)
    refine ⟨t, done, run, fun k => ?_, frame.trans ?_, State.lines_of_read lines⟩
    · have last : routeAfter k (s.zone k).route [.route z m, .route z m'] = if z = k then m' else if z = k then m else (s.zone k).route :=
        rfl
      rw [zones, last]
      by_cases same : k = z
      · rw [if_pos same, if_pos same.symm]
      · rw [if_neg same, if_neg (Ne.symm same), if_neg (Ne.symm same)]
    · rw [State.points_of_read points, State.masks_of_read masks]
  · obtain ⟨t, done, run, ⟨zones, masks, lines⟩, points, frame⟩ := acts (List.forall_mem_singleton.mpr (.mask on below))
    refine ⟨t, done, run, fun k => ?_, frame.trans ?_, State.lines_of_read lines⟩
    · rw [masks, maskAfter_mask]
      by_cases same : k = m
      · rw [if_pos same, if_pos same.symm]
      · rw [if_neg same, if_neg (Ne.symm same)]
    · rw [State.points_of_read points, State.zones_of_read zones]
  · obtain ⟨t, done, run, ⟨zones, masks, lines⟩, points, frame⟩ := acts (List.forall_mem_singleton.mpr (.trigger mode below))
    refine ⟨t, done, run, fun k => ?_, frame.trans ?_⟩
    · rw [lines, lineAfter_trigger]
      by_cases same : k = n
      · rw [if_pos same, if_pos same.symm]
        cases mode <;> rfl
      · rw [if_neg same, if_neg (Ne.symm same)]
    · rw [State.points_of_read points, State.zones_of_read zones, State.masks_of_read masks]
  · obtain ⟨t, done, run, ⟨zones, masks, lines⟩, points, frame⟩ :=
      acts (List.forall_mem_singleton.mpr (.level_point cv clear below free low high))
    refine ⟨t, done, run, fun q => ?_, frame.trans ?_, State.lines_of_read lines⟩
    · have level : pointAfter s.store q (s.point q) [.level (.point p) v 0 cv clear] =
          if q ∈ s.store.resolve (.point p) then { s.point q with base := v, trim := if clear then 0 else (s.point q).trim }
          else s.point q := rfl
      rw [points, level, s.store.resolve_point below]
      simp only [List.mem_singleton]
    · rw [State.zones_of_read zones, State.masks_of_read masks]

end Sys2Proof.Machine
end

section
/-! How a move starts and snaps, and the run that it leaves (3.3, 5.4). -/

namespace Sys2Proof.Machine

theorem State.run?_of_runs {s t : State} (same : t.runner.runs = s.runner.runs) (d : Nat) : t.run? d = s.run? d := by
  rw [State.run?, same]
  rfl

/-! ## What actions may reach -/

/-- All that the dispatch of a run may change. -/
structure Handed (s t : State) : Prop where
  frame : t = { s with
    lanes := t.lanes, points := t.points, masks := t.masks, slots := t.slots, zones := t.zones, runner := t.runner,
    record := t.record }

theorem Handed.trans {s t u : State} (h : Handed s t) (g : Handed t u) : Handed s u := by
  have first := h.frame
  have second := g.frame
  generalize u.lanes = lanes, u.points = points, u.masks = masks, u.slots = slots, u.zones = zones, u.runner = runner,
    u.record = record at second
  subst second
  generalize t.lanes = lanes', t.points = points', t.masks = masks', t.slots = slots', t.zones = zones', t.runner = runner',
    t.record = record' at first
  subst first
  exact ⟨rfl⟩

theorem ActedAtOnce.handed {s t : State} {acts : List Action} (acted : ActedAtOnce s t acts) : Handed s t := by
  have frame := acted.frame
  generalize t.points = points, t.masks = masks, t.zones = zones, t.runner.lines = lines at frame
  subst frame
  exact ⟨rfl⟩

theorem State.finishDispatch_handed (c : Nat) (h : State) : Handed h (h.finishDispatch c) := by
  have frame := h.finishDispatch_frame c
  generalize (h.finishDispatch c) = t at frame
  generalize t.lanes = lanes, t.runner = runner at frame
  subst frame
  exact ⟨rfl⟩

theorem State.leave_handed (p : Nat) (s : State) : Handed s (s.leave p) := ⟨by apply State.ext_fields <;> simp⟩

theorem State.leaveAll_handed (ps : List Nat) (s : State) : Handed s (s.leaveAll ps) := ⟨by apply State.ext_fields <;> simp⟩

/-! ## The slot that a move gets (R48) -/

section
variable {s : State}

theorem State.freeSlot?_eq_some {k : Nat} (below : k < 32) (free : s.slot k = none) (lowest : ∀ j, j < k → s.slot j ≠ none) :
    s.freeSlot? = some k := by
  refine List.find?_range_eq_some.mpr ⟨by rw [free]; rfl, List.mem_range.mpr below, fun j less => ?_⟩
  rw [Bool.not_eq_true', Option.isNone_eq_false_iff]
  exact Option.isSome_iff_ne_none.mpr (lowest j less)

theorem State.freeSlot?_eq_none (full : ∀ k, k < 32 → s.slot k ≠ none) : s.freeSlot? = none := by
  refine List.find?_eq_none.mpr fun k mem => ?_
  rw [Option.isNone_iff_eq_none]
  exact full k (List.mem_range.mp mem)

end

/-! ## A move that starts -/

theorem Point.captured (clear : Bool) (k : Nat) (q : Point) : { q.capture clear with membership := some k } =
    if clear then { base := q.effective, trim := 0, membership := some k } else { q with membership := some k } := by
  cases clear with
  | false => rfl
  | true =>
    have range := effective_bounds q.base q.trim
    have same : clampBase q.effective = q.effective := clampBase_of_range range.1 range.2
    simp only [Point.capture, if_true, same]

/-- What the start of a move by a cue's run does (R47, R48, R91). -/
structure MoveStarted (s t : State) (k c index : Nat) (ps : List Nat) (v : Int) (time : Nat) (cv : Curve) (clear : Bool) : Prop where
  slot : t.slot k = some ⟨some c, index, v, time, cv, 0,
    ps.map fun p => ⟨p, if clear then (s.point p).effective else (s.point p).base⟩⟩
  others : ∀ j, j ≠ k → t.slot j = s.slot j
  point : ∀ p, t.point p = if p ∈ ps then
      (if clear then { base := (s.point p).effective, trim := 0, membership := some k }
       else { s.point p with membership := some k })
    else s.point p
  run? : ∀ d, t.run? d = if d = c then (s.run? d).map fun r => { r with slots := r.slots + 1 } else s.run? d
  frame : t = { s with points := t.points, slots := t.slots, runner := { s.runner with runs := t.runner.runs } }

namespace MoveStarted

section
variable {s t : State} {k c index : Nat} {ps : List Nat} {v : Int} {time : Nat} {cv : Curve} {clear : Bool}
  (started : MoveStarted s t k c index ps v time cv clear)
include started

theorem store : t.store = s.store := by rw [started.frame]

theorem lanes : t.lanes = s.lanes := by rw [started.frame]

theorem runner : t.runner = { s.runner with runs := t.runner.runs } := by rw [started.frame]

theorem handed : Handed s t := by
  have frame := started.frame
  generalize t.points = points, t.slots = slots, t.runner.runs = runs at frame
  subst frame
  exact ⟨rfl⟩

theorem run?_of_free {r : Run} (found : s.run? c = some r) (no_slot : r.slots = 0) : t.run? c = some { r with slots := 1 } := by
  rw [started.run?, if_pos rfl, found, Option.map_some, no_slot]

end

end MoveStarted

section
variable (s : State) {k : Nat} (c index : Nat) {ps : List Nat} (v : Int) (time : Nat) (cv : Curve) (clear : Bool)

theorem State.startMove_started (below : k < 32) (distinct : ps.Nodup) (inside : ∀ p ∈ ps, p < 1056) :
    MoveStarted s (s.startMove k (some c) index ps v time cv clear) k c index ps v time cv clear := by
  have slots : (s.onPoints ps fun q => { q.capture clear with membership := some k }).slots = s.slots := State.onPoints_slots _ _ _
  have runner : (s.onPoints ps fun q => { q.capture clear with membership := some k }).runner = s.runner := State.onPoints_runner _ _ _
  refine ⟨?_, fun j other => ?_, fun p => ?_, fun d => ?_, ?_⟩
  · exact (State.slot_setSlot _ k k _).trans (if_pos ⟨rfl, below⟩)
  · refine (State.slot_setSlot _ k j _).trans ((if_neg fun h => other h.1).trans ?_)
    rw [State.slot, slots]
    rfl
  · refine (State.point_onPoints ps _ s p distinct).trans ?_
    by_cases named : p ∈ ps
    · rw [if_pos ⟨named, inside p named⟩, if_pos named, Point.captured]
    · rw [if_neg fun h => named h.1, if_neg named]
  · refine (State.run?_onRun _ c d (fun r => { r with slots := r.slots + 1 }) fun _ => rfl).trans ?_
    have same : ((s.onPoints ps fun q => { q.capture clear with membership := some k }).setSlot k
        (some ⟨some c, index, v, time, cv, 0, ps.map fun p => ⟨p, (s.point p).startLevel clear⟩⟩)).run? d = s.run? d := by
      exact State.run?_of_runs (congrArg Runner.runs runner) d
    rw [same]
  · apply State.ext_fields <;> simp
    simp only [State.startMove, State.onRun, State.setSlot, runner]

/-- A LEVEL action with a fade time, once its points are resolved (R45, R46). -/
theorem State.levelAction_move {g : ActTarget} (points : s.store.resolve g = ps) (named : ps ≠ []) (owner : Option Nat) :
    s.levelAction owner c index g v time cv clear = (s.leaveAll ps).moveLevels owner c index ps v time cv clear := by
  have some_ : ¬ ps.isEmpty = true := fun h => named (List.isEmpty_iff.mp h)
  unfold State.levelAction
  dsimp only
  rw [points, if_neg some_]

theorem State.moveLevels_starts {owner : Option Nat} (slow : 1 ≤ time) (lowest : s.freeSlot? = some k) (room : ps.length ≤ s.poolFree) :
    s.moveLevels owner c index ps v time cv clear = s.startMove k owner index ps v time cv clear := by
  rw [State.moveLevels, if_neg (by omega), lowest]
  exact if_pos room

theorem State.moveLevels_snaps {owner : Option Nat} (slow : 1 ≤ time) (no_room : s.freeSlot? = none ∨ s.poolFree < ps.length) :
    s.moveLevels owner c index ps v time cv clear = (s.onPoints ps (Point.jump v clear)).snapReport owner c index ps.length := by
  rw [State.moveLevels, if_neg (by omega)]
  rcases no_room with full | few
  · rw [full]
  · cases s.freeSlot? with
    | none => rfl
    | some k => exact if_neg (by omega)

end

/-- A target's points as an action resolves them (R45). -/
theorem Store.resolve_of_names {st : Store} {target : ActTarget} {ps : List Nat} (inside : ∀ p ∈ ps, p < 1056)
    (names : (∃ p, target = .point p ∧ ps = [p]) ∨ ∃ g grp, target = .group g ∧ st.group? g = some grp ∧ ps = grp.members) :
    st.resolve target = ps := by
  rcases names with ⟨p, rfl, rfl⟩ | ⟨g, grp, rfl, held, rfl⟩
  · exact st.resolve_point (inside p List.mem_cons_self)
  · rw [Store.resolve, held]
    rfl

/-! ## The run that a move leaves (R91, R93) -/

/-- How a run whose actions left it one slot goes on (R92, R93). -/
structure RunMoves (t : State) (c : Nat) (r : Run) : Prop where
  plain : r.follow = .none → r.followState = .none → t.run? c = some { r with state := .active, preWait := 0, slots := 1 }
  afterStart : ∀ d, r.follow = .afterStart d → t.run? c = some { r with
    state := .active, preWait := 0, slots := 1, followState := .timing, followRemaining := d }
  afterEnd : ∀ d, r.follow = .afterEnd d → t.run? c = some { r with
    state := .active, preWait := 0, slots := 1, followState := .waitingEnd, followRemaining := 0 }
  beats : ∀ n, r.follow = .beats n → r.followState = .counting →
    t.run? c = some { r with state := .active, preWait := 0, slots := 1 }

theorem RunMoves.of_finish {h : State} {c : Nat} {r x : Run} (found : h.run? c = some x)
    (same : x = { r with followState := x.followState, followRemaining := x.followRemaining, slots := 1 })
    (kept : r.followState ≠ .waitingEnd → x = { r with slots := 1 }) : RunMoves (h.finishDispatch c) c r := by
  have follow : x.follow = r.follow := (congrArg Run.follow same :)
  have slot : x.slots = 1 := (congrArg Run.slots same :)
  have one : ¬ x.slots = 0 := by omega
  refine ⟨fun plain idle => ?_, fun d start => ?_, fun d end_ => ?_, fun n beats counting => ?_⟩
  · have unchanged := kept (by rw [idle]; decide)
    rw [State.run?_finishDispatch_none found (follow.trans plain) ((congrArg Run.followState unchanged).trans idle), if_neg one,
      unchanged]
  · rw [State.run?_finishDispatch_afterStart found (follow.trans start), same]
  · rw [State.run?_finishDispatch_afterEnd found (follow.trans end_), if_neg one, same]
  · have unchanged := kept (by rw [counting]; decide)
    rw [State.run?_finishDispatch_beats found (follow.trans beats) ((congrArg Run.followState unchanged).trans counting), unchanged]

end Sys2Proof.Machine
end

section
/-! A point that leaves its slot, and lists of actions of several kinds (3.4, 5.4). -/

namespace Sys2Proof.Machine

/-! ## A point that leaves its slot (R46, R51 to R53) -/

section
variable {s : State} {p k : Nat} {f : FadeSlot} (member : (s.point p).membership = some k) (used : s.slot k = some f)
include member used

theorem State.leave_of_last (last : ∀ m ∈ f.members, m.point = p) :
    s.leave p = ((s.setMembership p none).setSlot k none).reportFreed f.owner := by
  have empty : (f.members.filter fun m => m.point != p).isEmpty = true := by
    rw [List.isEmpty_iff, List.filter_eq_nil_iff]
    intro m mem
    simp [last m mem]
  unfold State.leave
  rw [member]
  dsimp only
  rw [used]
  dsimp only
  rw [if_pos empty]

theorem State.leave_of_others (others : ∃ m ∈ f.members, m.point ≠ p) : s.leave p =
    (s.setMembership p none).setSlot k (some { f with members := f.members.filter fun m => m.point != p }) := by
  obtain ⟨m, mem, other⟩ := others
  have left_ : ¬ (f.members.filter fun m => m.point != p).isEmpty = true := fun empty => by
    have gone := List.filter_eq_nil_iff.mp (List.isEmpty_iff.mp empty) m mem
    simp [other] at gone
  unfold State.leave
  rw [member]
  dsimp only
  rw [used]
  dsimp only
  rw [if_neg left_]

end

theorem State.leave_of_free {s : State} {p : Nat} (free : (s.point p).membership = none) : s.leave p = s := by
  rw [State.leave, free]

theorem State.leaveAll_single (s : State) (p : Nat) : s.leaveAll [p] = s.leave p := rfl

theorem pointAfter_of_not_named {st : Store} {p : Nat} {acts : List Action} (out : ∀ a ∈ acts, p ∉ st.pointsNamed a) (q : Point) :
    pointAfter st p q acts = q := by
  induction acts generalizing q with
  | nil => rfl
  | cons a as ih =>
    have rest := ih (fun b mem => out b (List.mem_cons_of_mem a mem))
    refine (rest _).trans ?_
    cases a with
    | level g v time cv clear => exact if_neg (out _ List.mem_cons_self)
    | route z m => rfl
    | mask m on => rfl
    | trigger n mode => rfl
    | halt g => rfl

/-! ## One timed move among actions whole at once -/

section
variable {s : State} {c p k : Nat} {pre post : List Action} {v : Int} {time : Nat} {cv : Curve} {clear : Bool}
  (once : ∀ a ∈ pre ++ post, a.AtOnce s) (later : ∀ a ∈ post, p ∉ s.store.pointsNamed a)
  (below : p < 1056) (free : (s.point p).membership = none) (slow : 1 ≤ time)
  (inside : k < 32) (empty : s.slot k = none) (lowest : ∀ j, j < k → s.slot j ≠ none) (room : 1 ≤ s.poolFree)
include once later below free slow inside empty lowest room

theorem handActions_one_move : ∃ a b, ActedAtOnce s a pre ∧ MoveStarted a b k c pre.length [p] v time cv clear ∧
    ActedAtOnce b (handActions (some c) c 0 (pre ++ .level (.point p) v time cv clear :: post) s) post := by
  have first := handActions_atOnce s (some c) c 0 fun a mem => once a (List.mem_append_left post mem)
  set a := handActions (some c) c 0 pre s
  have points : a.store.resolve (.point p) = [p] := a.store.resolve_point below
  have stays : a.leaveAll [p] = a := by
    rw [State.leaveAll_single, State.leave_of_free ((first.membership p).trans free)]
  have starts : a.handAction (some c) c pre.length (.level (.point p) v time cv clear) =
      a.startMove k (some c) pre.length [p] v time cv clear := by
    refine (a.levelAction_move c pre.length v time cv clear points (List.cons_ne_nil _ _) (some c)).trans ?_
    rw [stays]
    refine a.moveLevels_starts c pre.length v time cv clear slow ?_ ?_
    · rw [first.freeSlot?]
      exact State.freeSlot?_eq_some inside empty lowest
    · rw [first.poolFree]
      exact room
  have started := a.startMove_started c pre.length v time cv clear inside (List.nodup_singleton p)
    (List.forall_mem_singleton.mpr below)
  refine ⟨a, _, first, started, ?_⟩
  have list : handActions (some c) c 0 (pre ++ .level (.point p) v time cv clear :: post) s =
      handActions (some c) c (pre.length + 1) post (a.startMove k (some c) pre.length [p] v time cv clear) := by
    rw [handActions_append, Nat.zero_add, handActions, starts]
  rw [list]
  refine handActions_atOnce _ (some c) c _ fun x mem => ?_
  have store : (a.startMove k (some c) pre.length [p] v time cv clear).store = a.store := started.store
  obtain ⟨out, whole⟩ := first.atOnce (once x (List.mem_append_right pre mem))
  refine ⟨fun q named => ?_, whole⟩
  rw [store] at named
  have other : q ∉ [p] := fun same => by
    rw [List.mem_singleton.mp same, first.store] at named
    exact later x mem named
  rw [started.point, if_neg other]
  exact out q named

end

/-! ## Two moves of one point -/

section
variable {s : State} {c p k : Nat} {v v' : Int} {time time' : Nat} {cv cv' : Curve} {clear clear' : Bool} {r : Run}
  (found : s.run? c = some r) (waits : r.state = .preWait) (no_slot : r.slots = 0) (idle : r.followState = .none)
  (empty : s.slot k = none)
include found waits no_slot idle empty

/-- The slot that a waiting run's move has just taken frees when the one point leaves it, and the run is not completed by that. -/
theorem MoveStarted.left {h : State} (started : MoveStarted s h k c 0 [p] v time cv clear) :
    (∀ j, (h.leave p).slot j = s.slot j) ∧ (h.leave p).run? c = some r ∧ (h.leave p).lanes = s.lanes ∧
      (h.leave p).runner = { s.runner with runs := (h.leave p).runner.runs } ∧ (h.leave p).store = s.store := by
  have point : h.point p = if clear then { base := (s.point p).effective, trim := 0, membership := some k }
      else { s.point p with membership := some k } := by rw [started.point, if_pos (List.mem_singleton.mpr rfl)]
  have member : (h.point p).membership = some k := by rw [point]; split <;> rfl
  have run : h.run? c = some { r with slots := 1 } := started.run?_of_free found no_slot
  have freed : ({ r with slots := 1 } : Run).slotFreed = r := by
    obtain ⟨cue, origin, state, preWait, follow, followState, remaining, slots, snapped⟩ := r
    subst no_slot idle
    rfl
  have stays : ({ r with slots := 1 } : Run).slotFreed.isDone = false := by
    rw [freed, Run.isDone, waits]
    rfl
  have last := State.leave_of_last member started.slot fun m mem => by
    rw [List.map_singleton, List.mem_singleton] at mem
    rw [mem]
  have same : ((h.setMembership p none).setSlot k none).run? c = some { r with slots := 1 } := run
  have left_ : h.leave p = ((h.setMembership p none).setSlot k none).onRun c Run.slotFreed :=
    last.trans (State.freeingReport_of_not_done same stays)
  refine ⟨fun j => ?_, ?_, ?_, ?_, ?_⟩
  · rw [State.slot_leave h p k j _ member started.slot]
    by_cases at_ : j = k
    · rw [if_pos at_, at_, empty]
      simp [FadeSlot.without]
    · rw [if_neg at_, started.others j at_]
  · rw [left_, State.run?_onRun_slotFreed same, freed]
  · rw [left_]
    exact started.lanes
  · rw [left_]
    have alone : RunsAlone h (((h.setMembership p none).setSlot k none).onRun c Run.slotFreed) := ⟨rfl⟩
    exact (RunsAlone.trans ⟨started.runner⟩ alone).runner
  · rw [left_]
    exact started.store

end

/-- Settles O37, by the laws of a list whole at once and of one move started among it. -/
theorem actionListsOfSeveralKindsAreHandedInOrder : Obligations.ActionListsOfSeveralKindsAreHandedInOrder := by
  intro s c r rec found waits no_slot held
  dsimp only
  refine ⟨fun once => exec_preWaitEnd_acts found waits no_slot held once, ?_, ?_⟩
  · intro pre post p v time cv clear k list once later below free slow low high inside empty lowest room
    obtain ⟨a, b, first, started, last⟩ :=
      handActions_one_move (c := c) (v := v) (cv := cv) (clear := clear) once later below free slow inside empty lowest room
    have done := exec_preWaitEnd_dispatch found waits held
    rw [list] at done
    generalize handActions (some c) c 0 (pre ++ .level (.point p) v time cv clear :: post) s = h at last done
    have frame := h.finishDispatch_frame c
    have lines : (h.finishDispatch c).runner.lines = h.runner.lines := (h.finishDispatch_runsAlone c).lines
    have lanes : h.lanes = s.lanes := by rw [last.lanes, started.lanes, first.lanes]
    have moves : RunMoves (h.finishDispatch c) c r := .of_finish (x := { r with slots := 1 })
      ((last.run? c).trans (started.run?_of_free ((first.run? c).trans found) no_slot)) rfl fun _ => rfl
    have whole : ∀ x, x ≠ p → h.point x = pointAfter s.store x (s.point x) (pre ++ post) := fun x other => by
      rw [last.point, started.point, if_neg (by simpa using other), first.point, started.store, first.store, pointAfter_append]
    have start : b.point p = if clear then { base := (a.point p).effective, trim := 0, membership := some k }
        else { a.point p with membership := some k } := by rw [started.point, if_pos (List.mem_singleton.mpr rfl)]
    refine ⟨_, done, ⟨fun z => ?_, fun m => ?_, fun n => ?_⟩, ⟨?_, ?_⟩, fun j other => ?_, fun x other => ?_, moves.plain,
      moves.afterEnd, h.finishDispatch_noticed c (.of_lanes lanes), ?_⟩
    · have zone : b.zone z = a.zone z := by rw [started.frame]; rfl
      rw [list, routeAfter_append, frame]
      refine (last.zone z).trans ?_
      rw [zone, first.zone]
      rfl
    · have masks : b.masks = a.masks := by rw [started.frame]
      rw [list, maskAfter_append, frame]
      refine (last.mask m).trans ?_
      rw [masks, first.mask]
      rfl
    · have line : b.line n = a.line n := by rw [State.line, started.runner]; rfl
      rw [list, lineAfter_append, State.line, lines]
      refine (last.line n).trans ?_
      rw [line, first.line]
      rfl
    · rw [frame]
      refine (last.slot k).trans ?_
      rw [started.slot, List.map_singleton, first.point]
    · rw [frame]
      refine (last.point p).trans ?_
      rw [pointAfter_of_not_named (fun x mem => by rw [started.store, first.store]; exact later x mem), start, first.point]
    · rw [frame]
      refine (last.slot j).trans ?_
      rw [started.others j other, first.slot]
    · rw [frame]
      exact whole x other
    · have whole := ((first.handed.trans started.handed).trans last.handed).trans (h.finishDispatch_handed c)
      refine whole.frame.trans ?_
      rw [show (h.finishDispatch c).record = s.record by rw [frame, last.frame, started.frame, first.frame]]
  · intro p v time cv clear v' time' cv' clear' k list below free slow slow' _ _ _ _ inside empty lowest room plain idle
    have done := exec_preWaitEnd_dispatch found waits held
    have single := List.nodup_singleton p
    have of_table : ∀ q ∈ [p], q < 1056 := List.forall_mem_singleton.mpr below
    have stays : s.leaveAll [p] = s := State.leave_of_free free
    have first : s.handAction (some c) c 0 (.level (.point p) v time cv clear) = s.startMove k (some c) 0 [p] v time cv clear := by
      refine (s.levelAction_move c 0 v time cv clear (s.store.resolve_point below) (List.cons_ne_nil _ _) (some c)).trans ?_
      rw [stays]
      exact s.moveLevels_starts c 0 v time cv clear slow (State.freeSlot?_eq_some inside empty lowest) room
    have started := s.startMove_started c 0 v time cv clear inside single of_table
    rw [list, handActions, first] at done
    generalize s.startMove k (some c) 0 [p] v time cv clear = a at started done
    obtain ⟨slots, run, lanes, runner, store⟩ := started.left found waits no_slot idle empty
    have points : ∀ q, (a.leave p).point q = if q = p then (if clear then ⟨(s.point p).effective, 0, none⟩ else s.point p) else s.point q :=
      fun q => by
        rw [State.point_leave, started.point]
        by_cases same : q = p
        · rw [if_pos same, if_pos same, if_pos (List.mem_singleton.mpr same), same]
          cases clear with
          | true => rfl
          | false => exact congrArg (fun x => { s.point p with membership := x }) free.symm
        · rw [if_neg same, if_neg same, if_neg fun mem => same (List.mem_singleton.mp mem)]
    have free_slot : (a.leave p).freeSlot? = some k :=
      State.freeSlot?_eq_some inside ((slots k).trans empty) fun j less => by rw [slots]; exact lowest j less
    have pool : (a.leave p).poolFree = s.poolFree := by
      simp only [State.poolFree, State.poolUsed_eq_sum, slots]
    have second : a.handAction (some c) c 1 (.level (.point p) v' time' cv' clear') =
        (a.leave p).startMove k (some c) 1 [p] v' time' cv' clear' := by
      refine (a.levelAction_move c 1 v' time' cv' clear' (a.store.resolve_point below) (List.cons_ne_nil _ _) (some c)).trans ?_
      rw [State.leaveAll_single]
      exact (a.leave p).moveLevels_starts c 1 v' time' cv' clear' slow' free_slot (by rw [pool]; exact room)
    have again := (a.leave p).startMove_started c 1 v' time' cv' clear' inside single of_table
    rw [handActions, second, handActions] at done
    generalize (a.leave p).startMove k (some c) 1 [p] v' time' cv' clear' = h at again done
    have frame := h.finishDispatch_frame c
    have moves : RunMoves (h.finishDispatch c) c r := .of_finish (x := { r with slots := 1 })
      (again.run?_of_free run no_slot) rfl fun _ => rfl
    refine ⟨_, done, ⟨?_, ?_⟩, fun j other => ?_, fun x other => ?_, moves.plain plain idle,
      h.finishDispatch_noticed c (.of_lanes (again.lanes.trans lanes)), ?_⟩
    · rw [frame]
      refine again.slot.trans ?_
      rw [List.map_singleton, points, if_pos rfl]
    · rw [frame]
      refine (again.point p).trans ?_
      rw [if_pos (List.mem_singleton.mpr rfl), points, if_pos rfl]
    · rw [frame]
      exact (again.others j other).trans (slots j)
    · rw [frame]
      refine (again.point x).trans ?_
      rw [if_neg fun mem => other (List.mem_singleton.mp mem), points, if_neg other]
    · have whole := ((started.handed.trans (a.leave_handed p)).trans again.handed).trans (h.finishDispatch_handed c)
      have record : (h.finishDispatch c).record = s.record := by rw [frame, again.frame, State.leave_record, started.frame]
      have masks : (h.finishDispatch c).masks = s.masks := by rw [frame, again.frame, State.leave_masks, started.frame]
      have zones : (h.finishDispatch c).zones = s.zones := by rw [frame, again.frame, State.leave_zones, started.frame]
      refine whole.frame.trans ?_
      rw [record, masks, zones]

end Sys2Proof.Machine
end

section
/-! Points that leave their slots where memberships and slots agree: the slots, the runs told and the pool (3.1, 3.4, 5.4). -/

namespace Sys2Proof.Machine

/-! ## Slots that points leave -/

theorem FadeSlot.without_nil {f : FadeSlot} (full : f.members ≠ []) : f.without [] = some f := by
  obtain ⟨m, mem⟩ := List.exists_mem_of_ne_nil _ full
  unfold FadeSlot.without
  rw [if_neg fun all => List.not_mem_nil (all m mem)]
  simp

/-- A slot that holds none of the points stands as it was. -/
theorem FadeSlot.without_of_apart {f : FadeSlot} {ps : List Nat} (full : f.members ≠ []) (apart : ∀ m ∈ f.members, m.point ∉ ps) :
    f.without ps = some f := by
  obtain ⟨m, mem⟩ := List.exists_mem_of_ne_nil _ full
  have all : (f.members.filter fun m => decide (m.point ∉ ps)) = f.members :=
    List.filter_eq_self.mpr fun m mem => decide_eq_true (apart m mem)
  unfold FadeSlot.without
  rw [if_neg fun all => apart m mem (all m mem), all]

theorem FadeSlot.without_cons (p : Nat) (ps : List Nat) (f : FadeSlot) :
    (f.without [p]).bind (FadeSlot.without ps) = f.without (p :: ps) := by
  unfold FadeSlot.without
  by_cases only : ∀ m ∈ f.members, m.point ∈ [p]
  · have all : ∀ m ∈ f.members, m.point ∈ p :: ps := fun m mem => by
      rw [List.mem_singleton.mp (only m mem)]
      exact List.mem_cons_self
    rw [if_pos only, if_pos all]
    rfl
  · have filters : ((f.members.filter fun m => decide (m.point ∉ [p])).filter fun m => decide (m.point ∉ ps)) =
        f.members.filter fun m => decide (m.point ∉ p :: ps) := by
      rw [List.filter_filter]
      refine List.filter_congr fun m _ => ?_
      simp only [List.mem_cons, List.not_mem_nil, or_false, not_or, Bool.decide_and]
      exact Bool.and_comm _ _
    have same : (∀ m ∈ f.members.filter fun m => decide (m.point ∉ [p]), m.point ∈ ps) ↔ ∀ m ∈ f.members, m.point ∈ p :: ps := by
      simp only [List.mem_filter, decide_eq_true_eq, and_imp, List.mem_singleton]
      refine forall₂_congr fun m _ => ?_
      rw [List.mem_cons]
      exact or_iff_not_imp_left.symm
    rw [if_neg only, Option.bind_some]
    by_cases all : ∀ m ∈ f.members, m.point ∈ p :: ps
    · rw [if_pos (same.mpr all), if_pos all]
    · rw [if_neg fun h => all (same.mp h), if_neg all, filters]

section
variable {s : State} (ok : FadesOk s)
include ok

theorem FadesOk.full {k : Nat} {f : FadeSlot} (used : s.slot k = some f) : f.members ≠ [] := ok.2.1 k f used

theorem FadesOk.slot_leave {p : Nat} (below : p < 1056) (k : Nat) : (s.leave p).slot k = (s.slot k).bind (FadeSlot.without [p]) := by
  have apart : (s.point p).membership ≠ some k → s.slot k = (s.slot k).bind (FadeSlot.without [p]) := fun other => by
    cases used : s.slot k with
    | none => rfl
    | some f =>
      refine (FadeSlot.without_of_apart (ok.full used) fun m mem same => other ?_).symm
      exact (ok.membership_iff below k).mpr ⟨f, used, m, mem, List.mem_singleton.mp same⟩
  cases member : (s.point p).membership with
  | none =>
    rw [State.leave_of_free member]
    exact apart (by rw [member]; exact nofun)
  | some j =>
    obtain ⟨f, used, _⟩ := (ok.membership_iff below j).mp member
    rw [State.slot_leave s p j k f member used]
    by_cases at_ : k = j
    · rw [if_pos at_, at_, used]
      rfl
    · rw [if_neg at_]
      exact apart (by rw [member]; exact fun e => at_ (Option.some.inj e).symm)

theorem FadesOk.slot_leaveAll {ps : List Nat} (inside : ∀ p ∈ ps, p < 1056) (k : Nat) :
    (s.leaveAll ps).slot k = (s.slot k).bind (FadeSlot.without ps) := by
  induction ps generalizing s with
  | nil =>
    cases used : s.slot k with
    | none => exact used
    | some f => exact used.trans (FadeSlot.without_nil (ok.full used)).symm
  | cons p ps ih =>
    have first : s.leaveAll (p :: ps) = (s.leave p).leaveAll ps := rfl
    rw [first, ih (ok.leave p) fun q mem => inside q (List.mem_cons_of_mem p mem), ok.slot_leave (inside p List.mem_cons_self),
      Option.bind_assoc]
    exact congrArg (s.slot k).bind (funext (FadeSlot.without_cons p ps))

/-! ## The pool -/

theorem FadesOk.poolUsed_leave {p : Nat} (below : p < 1056) :
    (s.leave p).poolUsed + (if (s.point p).membership.isSome then 1 else 0) ≤ s.poolUsed := by
  have shrinks : ∀ k, slotSize ((s.leave p).slot k) ≤ slotSize (s.slot k) := fun k => by
    rw [ok.slot_leave below]
    cases s.slot k with
    | none => exact Nat.le_refl _
    | some f => exact FadeSlot.slotSize_without_le [p] f
  rw [State.poolUsed_eq_sum, State.poolUsed_eq_sum]
  cases member : (s.point p).membership with
  | none =>
    simp only [Option.isSome_none, Bool.false_eq_true, if_false, Nat.add_zero]
    exact Finset.sum_le_sum fun k _ => shrinks k
  | some j =>
    obtain ⟨f, used, m, mem, same⟩ := (ok.membership_iff below j).mp member
    have inside : j < Config.slots := by
      by_contra above
      rw [s.slot_of_le (Nat.le_of_not_lt above)] at used
      cases used
    simp only [Option.isSome_some, if_true]
    rw [Nat.add_one_le_iff]
    refine Finset.sum_lt_sum (fun k _ => shrinks k) ⟨j, Finset.mem_range.mpr inside, ?_⟩
    rw [ok.slot_leave below, used, Option.bind_some]
    unfold FadeSlot.without slotSize
    split
    · exact List.length_pos_of_mem mem
    · refine List.length_filter_lt_length_iff_exists.mpr ⟨m, mem, ?_⟩
      simp [same]

/-- Points that leave slots return their entries (R39). -/
theorem FadesOk.poolFree_leaveAll {ps : List Nat} (inside : ∀ p ∈ ps, p < 1056) (distinct : ps.Nodup) :
    s.poolFree + (ps.filter fun p => (s.point p).membership.isSome).length ≤ (s.leaveAll ps).poolFree := by
  induction ps generalizing s with
  | nil => exact Nat.le_refl _
  | cons p ps ih =>
    obtain ⟨new, distinct⟩ := List.nodup_cons.mp distinct
    have rest := ih (ok.leave p) (fun q mem => inside q (List.mem_cons_of_mem p mem)) distinct
    have same : (ps.filter fun q => ((s.leave p).point q).membership.isSome) = ps.filter fun q => (s.point q).membership.isSome :=
      List.filter_congr fun q mem => by
        have other : q ≠ p := fun e => new (e ▸ mem)
        rw [State.point_leave, if_neg other]
    have first := ok.poolUsed_leave (inside p List.mem_cons_self)
    have fits : s.poolUsed ≤ 1024 := ok.2.2
    rw [same] at rest
    change _ ≤ ((s.leave p).leaveAll ps).poolFree
    refine Nat.le_trans ?_ rest
    have pool : ∀ t : State, t.poolFree = 1024 - t.poolUsed := fun _ => rfl
    rw [pool, pool, List.filter_cons]
    cases member : (s.point p).membership.isSome with
    | false => simp only [member, Bool.false_eq_true, if_false] at first ⊢; omega
    | true => simp only [member, if_true, List.length_cons] at first ⊢; omega

end

/-! ## Runs told (R53, R54) -/

theorem Run.afterReports_add (m n : Nat) (r : Run) : (r.afterReports m).bind (Run.afterReports n) = r.afterReports (m + n) := by
  obtain ⟨cue, origin, state, preWait, follow, followState, remaining, slots, snapped⟩ := r
  by_cases no_first : m = 0
  · subst no_first
    rw [Run.afterReports_zero, Nat.zero_add]
    rfl
  by_cases no_more : n = 0
  · subst no_more
    rw [Nat.add_zero]
    rw [funext Run.afterReports_zero]
    exact Option.bind_fun_some _
  unfold Run.afterReports
  dsimp only
  rw [if_neg no_first, if_neg (by omega : ¬ m + n = 0)]
  by_cases some_left : m < slots
  · rw [if_pos some_left, Option.bind_some, if_neg no_more]
    dsimp only
    by_cases more_left : m + n < slots
    · rw [if_pos (by omega), if_pos more_left, Nat.sub_sub]
    · rw [if_neg (by omega), if_neg more_left]
  · rw [if_neg some_left, if_neg (by omega : ¬ m + n < slots)]
    by_cases waits : followState = .waitingEnd
    · rw [if_pos waits, Option.bind_some, if_neg no_more]
      simp
    · rw [if_neg waits]
      by_cases over_ : state = .active ∧ followState = .none
      · rw [if_pos over_]
        rfl
      · rw [if_neg over_, Option.bind_some, if_neg no_more]
        simp only [Nat.not_lt_zero, if_false, if_neg waits, if_neg over_]

theorem length_filter_of_disjoint {α : Type} {p q r : α → Bool} (l : List α) (parts : ∀ x ∈ l, p x = (q x || r x))
    (apart : ∀ x ∈ l, q x = true → r x = false) : (l.filter p).length = (l.filter q).length + (l.filter r).length := by
  induction l with
  | nil => rfl
  | cons x xs ih =>
    have rest := ih (fun y mem => parts y (List.mem_cons_of_mem x mem)) fun y mem => apart y (List.mem_cons_of_mem x mem)
    have here := parts x List.mem_cons_self
    have alone := apart x List.mem_cons_self
    simp only [List.filter_cons, here]
    cases first : q x with
    | false => cases r x <;> simp <;> omega
    | true => simp [alone first]; omega

/-- A slot of the cue's that points empty by leaving it (R53). -/
def FadeSlot.tells (c : Nat) (ps : List Nat) : Option FadeSlot → Bool
  | some f => decide (f.owner = some c ∧ ∀ m ∈ f.members, m.point ∈ ps)
  | none => false

theorem State.emptiedOf_eq (s : State) (ps : List Nat) (c : Nat) :
    s.emptiedOf ps c = ((List.range Config.slots).filter fun k => FadeSlot.tells c ps (s.slot k)).length := by
  refine congrArg List.length (List.filter_congr fun k _ => ?_)
  cases s.slot k <;> rfl

/-- A slot is emptied by the first point, or by the others once that has left, and not by both. -/
theorem FadeSlot.tells_cons (c p : Nat) (ps : List Nat) (o : Option FadeSlot) :
    tells c (p :: ps) o = (tells c [p] o || tells c ps (o.bind (FadeSlot.without [p]))) ∧
      (tells c [p] o = true → tells c ps (o.bind (FadeSlot.without [p])) = false) := by
  cases o with
  | none => exact ⟨rfl, nofun⟩
  | some f =>
    rw [Option.bind_some]
    unfold FadeSlot.without
    by_cases only : ∀ m ∈ f.members, m.point ∈ [p]
    · rw [if_pos only]
      have all : ∀ m ∈ f.members, m.point ∈ p :: ps := fun m mem => by
        rw [List.mem_singleton.mp (only m mem)]
        exact List.mem_cons_self
      refine ⟨?_, fun _ => rfl⟩
      simp only [tells, eq_true only, eq_true all, and_true, Bool.or_false]
    · rw [if_neg only]
      simp only [tells, eq_false only, and_false, decide_false, Bool.false_or, Bool.false_eq_true, false_imp_iff, and_true,
        decide_eq_decide]
      refine and_congr_right fun _ => ?_
      simp only [List.mem_filter, decide_eq_true_eq, and_imp, List.mem_singleton]
      refine forall₂_congr fun m _ => ?_
      rw [List.mem_cons]
      exact or_iff_not_imp_left

section
variable {s : State} (ok : FadesOk s)
include ok

/-- The reports that points send by leaving one after another. -/
theorem FadesOk.emptiedOf_cons {p : Nat} {ps : List Nat} (below : p < 1056) (c : Nat) :
    s.emptiedOf (p :: ps) c = s.emptiedOf [p] c + (s.leave p).emptiedOf ps c := by
  simp only [State.emptiedOf_eq]
  refine length_filter_of_disjoint _ (fun k _ => ?_) fun k _ => ?_ <;> rw [ok.slot_leave below]
  · exact (FadeSlot.tells_cons c p ps (s.slot k)).1
  · exact (FadeSlot.tells_cons c p ps (s.slot k)).2

/-- A point that leaves reports to the owner of its slot if it empties that (R53). -/
theorem FadesOk.emptiedOf_single {p : Nat} (below : p < 1056) (c : Nat) : s.emptiedOf [p] c =
    match (s.point p).membership.bind s.slot with
    | some f => if f.owner = some c ∧ ∀ m ∈ f.members, m.point = p then 1 else 0
    | none => 0 := by
  have counted : ∀ k f, s.slot k = some f → (∀ m ∈ f.members, m.point ∈ [p]) → (s.point p).membership = some k :=
    fun k f used only => by
      obtain ⟨m, mem⟩ := List.exists_mem_of_ne_nil _ (ok.full used)
      exact (ok.membership_iff below k).mpr ⟨f, used, m, mem, List.mem_singleton.mp (only m mem)⟩
  have counted : ∀ k, FadeSlot.tells c [p] (s.slot k) = true → (s.point p).membership = some k := fun k told => by
    cases used : s.slot k with
    | none => rw [used] at told; cases told
    | some f => rw [used] at told; exact counted k f used (of_decide_eq_true told).2
  rw [State.emptiedOf_eq]
  cases member : (s.point p).membership with
  | none =>
    rw [List.filter_eq_nil_iff.mpr fun k _ told => ?_]
    · rfl
    · rw [counted k told] at member
      cases member
  | some j =>
    obtain ⟨f, used, _⟩ := (ok.membership_iff below j).mp member
    have inside : j < Config.slots := by
      by_contra above
      rw [s.slot_of_le (Nat.le_of_not_lt above)] at used
      cases used
    have only_here : ∀ k, FadeSlot.tells c [p] (s.slot k) = true → k = j := fun k told =>
      Option.some.inj ((counted k told).symm.trans member)
    have here : FadeSlot.tells c [p] (s.slot j) = decide (f.owner = some c ∧ ∀ m ∈ f.members, m.point = p) := by
      rw [used]
      simp only [FadeSlot.tells, List.mem_singleton]
    rw [Option.bind_some, used]
    dsimp only
    by_cases told : f.owner = some c ∧ ∀ m ∈ f.members, m.point = p
    · have at_ : ∀ k, FadeSlot.tells c [p] (s.slot k) = (k == j) := fun k => by
        rw [Bool.eq_iff_iff, beq_iff_eq]
        exact ⟨only_here k, fun same => by rw [same, here]; exact decide_eq_true told⟩
      rw [if_pos told]
      simp only [at_]
      rw [List.filter_beq, List.count_eq_one_of_mem List.nodup_range (List.mem_range.mpr inside)]
      rfl
    · rw [if_neg told, List.filter_eq_nil_iff.mpr fun k _ tells => ?_]
      · rfl
      · rw [only_here k tells, here] at tells
        exact told (of_decide_eq_true tells)

theorem FadesOk.runs_leave {p : Nat} (below : p < 1056) (distinct : (s.runner.runs.map (·.cue)).Nodup) :
    (s.leave p).runner.runs = s.runsAfter [p] := by
  have quiet : (∀ c, s.emptiedOf [p] c = 0) → s.runner.runs = s.runsAfter [p] := fun none_ => by
    unfold State.runsAfter
    simp only [none_, Run.afterReports_zero]
    exact List.filterMap_some.symm
  have told := ok.emptiedOf_single below
  cases member : (s.point p).membership with
  | none =>
    rw [State.leave_of_free member]
    exact quiet fun c => by rw [told, member]; rfl
  | some k =>
    obtain ⟨f, used, _⟩ := (ok.membership_iff below k).mp member
    rw [member, Option.bind_some, used] at told
    dsimp only at told
    by_cases last : ∀ m ∈ f.members, m.point = p
    · rw [State.leave_of_last member used last]
      cases owner : f.owner with
      | none => exact quiet fun c => by rw [told, owner, if_neg fun h => nomatch h.1]
      | some c =>
        refine (State.runs_freeingReport ((s.setMembership p none).setSlot k none) c distinct).trans ?_
        refine List.filterMap_congr fun r _ => ?_
        rw [told, owner]
        by_cases own : r.cue = c
        · rw [if_pos own, if_pos ⟨congrArg some own.symm, last⟩]
        · rw [if_neg own, if_neg fun h => own (Option.some.inj h.1).symm, Run.afterReports_zero]
    · have others : ∃ m ∈ f.members, m.point ≠ p := by simpa using last
      rw [State.leave_of_others member used others]
      exact quiet fun c => by rw [told, if_neg fun h => last h.2]

/-- The run list once points have left their slots (R54). -/
theorem FadesOk.runs_leaveAll {ps : List Nat} (inside : ∀ p ∈ ps, p < 1056) (distinct : (s.runner.runs.map (·.cue)).Nodup) :
    (s.leaveAll ps).runner.runs = s.runsAfter ps := by
  induction ps generalizing s with
  | nil =>
    have none_ : ∀ c, s.emptiedOf [] c = 0 := fun c => by
      refine List.length_eq_zero_iff.mpr (List.filter_eq_nil_iff.mpr fun k _ h => ?_)
      cases used : s.slot k with
      | none => simp [used] at h
      | some f =>
        obtain ⟨m, mem⟩ := List.exists_mem_of_ne_nil _ (ok.full used)
        simp only [used, decide_eq_true_eq] at h
        exact List.not_mem_nil (h.2 m mem)
    unfold State.runsAfter
    simp only [none_, Run.afterReports_zero]
    exact List.filterMap_some.symm
  | cons p ps ih =>
    have below := inside p List.mem_cons_self
    have first : s.leaveAll (p :: ps) = (s.leave p).leaveAll ps := rfl
    have fewer : ((s.leave p).runner.runs.map (·.cue)).Nodup := (s.leave_shrinks p).cues.nodup distinct
    rw [first, ih (ok.leave p) (fun q mem => inside q (List.mem_cons_of_mem p mem)) fewer]
    unfold State.runsAfter
    rw [ok.runs_leave below distinct, State.runsAfter, List.filterMap_filterMap]
    refine List.filterMap_congr fun r _ => ?_
    rw [ok.emptiedOf_cons (ps := ps) below, ← Run.afterReports_add]
    cases left_ : r.afterReports (s.emptiedOf [p] r.cue) with
    | none => rfl
    | some x => rw [Option.bind_some, Option.bind_some, Run.afterReports_cue _ r x left_]

end

end Sys2Proof.Machine
end

section
/-! Moves that start, snap and take points over, and HALT (3.3, 3.4, 5.4). -/

namespace Sys2Proof.Machine

/-! ## What leaving tells the runner -/

theorem RunTold.freeingReport (s : State) (c : Nat) : RunTold s (s.freeingReport c) :=
  have freed : RunTold s (s.onRun c Run.slotFreed) := .of_lanes rfl
  freed.trans (.checkCompletion _ c)

theorem RunTold.reportFreed (owner : Option Nat) (s : State) : RunTold s (s.reportFreed owner) := by
  cases owner with
  | none => exact .of_lanes rfl
  | some c => exact .freeingReport s c

theorem State.leave_told (p : Nat) (s : State) : RunTold s (s.leave p) ∧ RunsAlone s (s.leave p) := by
  unfold State.leave
  split
  · exact ⟨.of_lanes rfl, .refl s⟩
  · next k _ =>
    split
    · exact ⟨.of_lanes rfl, .of_runner rfl⟩
    · next f _ =>
      dsimp only
      split
      · have told := RunTold.reportFreed f.owner ((s.setMembership p none).setSlot k none)
        have alone := ((s.setMembership p none).setSlot k none).reportFreed_runsAlone f.owner
        have quiet : RunTold s ((s.setMembership p none).setSlot k none) := .of_lanes rfl
        have kept : RunsAlone s ((s.setMembership p none).setSlot k none) := .of_runner rfl
        exact ⟨quiet.trans told, kept.trans alone⟩
      · exact ⟨.of_lanes rfl, .of_runner rfl⟩

theorem State.leaveAll_told (ps : List Nat) (s : State) : RunTold s (s.leaveAll ps) ∧ RunsAlone s (s.leaveAll ps) := by
  unfold State.leaveAll
  induction ps generalizing s with
  | nil => exact ⟨.of_lanes rfl, .refl s⟩
  | cons p ps ih => exact ⟨(s.leave_told p).1.trans (ih _).1, (s.leave_told p).2.trans (ih _).2⟩

/-- Reports change a waiting run that owns no slot only where its follow waited for cue end. -/
theorem Run.afterReports_waiting {r : Run} (waits : r.state = .preWait) (no_slot : r.slots = 0) (n : Nat) :
    ∃ x, r.afterReports n = some x ∧ x = { r with followState := x.followState, followRemaining := x.followRemaining } ∧
      (r.followState ≠ .waitingEnd → x = r) := by
  obtain ⟨cue, origin, state, preWait, follow, followState, remaining, slots, snapped⟩ := r
  subst waits no_slot
  unfold Run.afterReports
  dsimp only
  by_cases none_ : n = 0
  · rw [if_pos none_]
    exact ⟨_, rfl, rfl, fun _ => rfl⟩
  · rw [if_neg none_, if_neg (Nat.not_lt_zero n)]
    by_cases ends : followState = .waitingEnd
    · rw [if_pos ends]
      exact ⟨_, rfl, rfl, fun other => absurd ends other⟩
    · rw [if_neg ends, if_neg nofun]
      exact ⟨_, rfl, rfl, fun _ => rfl⟩

/-- A run looked up after the reports of a list that holds no cue twice. -/
theorem State.run?_runsAfter {s : State} (distinct : (s.runner.runs.map (·.cue)).Nodup) (ps : List Nat) (d : Nat) :
    (s.runsAfter ps).find? (fun r => r.cue == d) = (s.run? d).bind fun x => x.afterReports (s.emptiedOf ps d) := by
  unfold State.runsAfter State.run?
  generalize s.runner.runs = runs at distinct
  induction runs with
  | nil => rfl
  | cons r rs ih =>
    obtain ⟨new, distinct⟩ := List.nodup_cons.mp distinct
    have rest := ih distinct
    rw [List.filterMap_cons, List.find?_cons]
    by_cases own : r.cue = d
    · subst own
      have absent : rs.find? (fun x => x.cue == r.cue) = none :=
        List.find?_eq_none.mpr fun x mem same => new (List.mem_map.mpr ⟨x, mem, beq_iff_eq.mp same⟩)
      rw [absent] at rest
      simp only [beq_self_eq_true, Option.bind_some]
      cases left_ : r.afterReports (s.emptiedOf ps r.cue) with
      | none => exact rest
      | some x => exact List.find?_cons_of_pos (beq_iff_eq.mpr (Run.afterReports_cue _ r x left_))
    · have other : (r.cue == d) = false := beq_false_of_ne own
      rw [other]
      dsimp only
      cases left_ : r.afterReports (s.emptiedOf ps r.cue) with
      | none => exact rest
      | some x =>
        refine (List.find?_cons_of_neg ?_).trans rest
        rw [Run.afterReports_cue _ r x left_, other]
        exact Bool.false_ne_true

/-! ## One action -/

section
variable {s : State} {c : Nat} {r : Run} {rec : Cue} (found : s.run? c = some r) (waits : r.state = .preWait)
  (held : s.store.cue? c = some rec)
include found waits held

theorem exec_preWaitEnd_level {g : ActTarget} {ps : List Nat} {v : Int} {time : Nat} {cv : Curve} {clear : Bool}
    (list : rec.actions = [.level g v time cv clear]) (points : s.store.resolve g = ps) (named : ps ≠ []) : exec (.preWaitEnd c) s =
      .next (((s.leaveAll ps).moveLevels (some c) c 0 ps v time cv clear).finishDispatch c) := by
  rw [exec_preWaitEnd_dispatch found waits held, list, ← s.levelAction_move c 0 v time cv clear points named (some c)]
  rfl

theorem exec_preWaitEnd_halt {g : ActTarget} {ps : List Nat} (list : rec.actions = [.halt g]) (points : s.store.resolve g = ps) :
    exec (.preWaitEnd c) s = .next ((s.leaveAll ps).finishDispatch c) := by
  rw [exec_preWaitEnd_dispatch found waits held, list, ← points]
  rfl

/-- The one action of a run being a LEVEL with a fade time that finds room once its points have left their slots. -/
theorem exec_preWaitEnd_starts {g : ActTarget} {ps : List Nat} {v : Int} {time : Nat} {cv : Curve} {clear : Bool} {k : Nat} {x : Run}
    (list : rec.actions = [.level g v time cv clear]) (points : s.store.resolve g = ps) (named : ps ≠ []) (distinct : ps.Nodup)
    (inside : ∀ p ∈ ps, p < 1056) (slow : 1 ≤ time) (below : k < 32) (lowest : (s.leaveAll ps).freeSlot? = some k)
    (room : ps.length ≤ (s.leaveAll ps).poolFree) (run : (s.leaveAll ps).run? c = some x) (no_slot : x.slots = 0)
    (same : x = { r with followState := x.followState, followRemaining := x.followRemaining })
    (kept : r.followState ≠ .waitingEnd → x = r) :
    ∃ t, exec (.preWaitEnd c) s = .next t ∧
      t.slot k = some ⟨some c, 0, v, time, cv, 0, ps.map fun p => ⟨p, if clear then (s.point p).effective else (s.point p).base⟩⟩ ∧
      (∀ j, j ≠ k → t.slot j = (s.leaveAll ps).slot j) ∧
      (∀ p, t.point p = if p ∈ ps then
          (if clear then { base := (s.point p).effective, trim := 0, membership := some k }
           else { s.point p with membership := some k })
        else s.point p) ∧
      (∀ d, d ≠ c → t.run? d = (s.leaveAll ps).run? d) ∧ RunMoves t c r ∧ t.runner = { s.runner with runs := t.runner.runs } ∧
      Noticed s t [.run] ∧
      t = { s with lanes := t.lanes, points := t.points, slots := t.slots, runner := t.runner } := by
  have done := exec_preWaitEnd_level found waits held list points named
  have started := (s.leaveAll ps).startMove_started c 0 v time cv clear below distinct inside
  rw [State.moveLevels_starts _ c 0 v time cv clear slow lowest room] at done
  obtain ⟨told, alone⟩ := s.leaveAll_told ps
  have handed := s.leaveAll_handed ps
  have left_ : ∀ p ∈ ps, (s.leaveAll ps).point p = { s.point p with membership := none } := fun p mem => by
    rw [State.point_leaveAll, if_pos mem]
  have quiet : (s.leaveAll ps).record = s.record ∧ (s.leaveAll ps).masks = s.masks ∧ (s.leaveAll ps).zones = s.zones := by simp
  have stays : ∀ p, p ∉ ps → (s.leaveAll ps).point p = s.point p := fun p out => by rw [State.point_leaveAll, if_neg out]
  generalize s.leaveAll ps = u at *
  generalize u.startMove k (some c) 0 ps v time cv clear = h at *
  have frame := h.finishDispatch_frame c
  refine ⟨_, done, ?_, fun j other => ?_, fun p => ?_, fun d other => ?_, ?_, ?_, ?_, ?_⟩
  · rw [frame]
    refine started.slot.trans (congrArg some ?_)
    refine congrArg (FadeSlot.mk (some c) 0 v time cv 0) (List.map_congr_left fun p mem => ?_)
    rw [left_ p mem]
    rfl
  · rw [frame]
    exact started.others j other
  · rw [frame]
    refine (started.point p).trans ?_
    by_cases mem : p ∈ ps
    · rw [if_pos mem, if_pos mem, left_ p mem]
      rfl
    · rw [if_neg mem, if_neg mem, stays p mem]
  · rw [State.run?_finishDispatch_other h c other, started.run?, if_neg other]
  · refine .of_finish (started.run?_of_free run no_slot) ?_ fun other => ?_
    · rw [same]
    · rw [kept other]
  · exact ((alone.trans ⟨started.runner⟩).trans (h.finishDispatch_runsAlone c)).runner
  · exact h.finishDispatch_noticed c (told.trans (.of_lanes started.lanes))
  · have record : (h.finishDispatch c).record = s.record := by rw [frame, started.frame]; exact quiet.1
    have masks : (h.finishDispatch c).masks = s.masks := by rw [frame, started.frame]; exact quiet.2.1
    have zones : (h.finishDispatch c).zones = s.zones := by rw [frame, started.frame]; exact quiet.2.2
    refine ((handed.trans started.handed).trans (h.finishDispatch_handed c)).frame.trans ?_
    rw [record, masks, zones]

/-- The one action of a run being a HALT. -/
theorem exec_preWaitEnd_halts {g : ActTarget} {ps : List Nat} {x : Run} (list : rec.actions = [.halt g])
    (points : s.store.resolve g = ps) (run : (s.leaveAll ps).run? c = some x) (no_slot : x.slots = 0)
    (same : x = { r with followState := x.followState, followRemaining := x.followRemaining })
    (kept : r.followState ≠ .waitingEnd → x = r) {runs : List Run} (left_ : (s.leaveAll ps).runner.runs = runs) :
    ∃ t, exec (.preWaitEnd c) s = .next t ∧ RunDispatched { s with runner := { s.runner with runs := runs } } t c r ∧
      (∀ k, t.slot k = (s.leaveAll ps).slot k) ∧
      (∀ q, t.point q = if q ∈ ps then { s.point q with membership := none } else s.point q) ∧
      t = { s with lanes := t.lanes, points := t.points, slots := t.slots, runner := t.runner } := by
  have done := exec_preWaitEnd_halt found waits held list points
  obtain ⟨told, alone⟩ := s.leaveAll_told ps
  have handed := s.leaveAll_handed ps
  have quiet : (s.leaveAll ps).record = s.record ∧ (s.leaveAll ps).masks = s.masks ∧ (s.leaveAll ps).zones = s.zones := by simp
  have read : ∀ q, (s.leaveAll ps).point q = if q ∈ ps then { s.point q with membership := none } else s.point q :=
    s.point_leaveAll ps
  generalize s.leaveAll ps = u at *
  have frame := u.finishDispatch_frame c
  refine ⟨_, done, ?_, fun k => by rw [frame]; rfl, fun q => by rw [frame]; exact read q, ?_⟩
  · refine .of_finish (x := x) (told := ⟨told.alike⟩) ?_ (fun d _ => ?_) run no_slot same kept
    · rw [alone.runner]
    · exact State.run?_of_runs (s := { s with runner := { s.runner with runs := runs } }) left_ d
  · have record : (u.finishDispatch c).record = s.record := by rw [frame]; exact quiet.1
    have masks : (u.finishDispatch c).masks = s.masks := by rw [frame]; exact quiet.2.1
    have zones : (u.finishDispatch c).zones = s.zones := by rw [frame]; exact quiet.2.2
    refine (handed.trans (u.finishDispatch_handed c)).frame.trans ?_
    rw [record, masks, zones]

end

end Sys2Proof.Machine
end

section
/-! Moves that start, snap and take points over, and HALT: the statement (3.3, 3.4). -/

namespace Sys2Proof.Machine

section
variable {s : State} {c : Nat} {r : Run} {rec : Cue} (found : s.run? c = some r) (waits : r.state = .preWait)
  (no_slot : r.slots = 0) (held : s.store.cue? c = some rec)
include found waits no_slot held

/-- A move without a FREE slot or entries for its points is written at once and counted as snapped (R49). -/
theorem exec_preWaitEnd_snaps {g : ActTarget} {ps : List Nat} {v : Int} {time : Nat} {cv : Curve} {clear : Bool}
    (list : rec.actions = [.level g v time cv clear]) (points : s.store.resolve g = ps) (named : ps ≠ []) (distinct : ps.Nodup)
    (free : ∀ p ∈ ps, p < 1056 ∧ (s.point p).membership = none) (slow : 1 ≤ time) (low : -900 ≤ v) (high : v ≤ 120)
    (no_room : (∀ k, k < 32 → s.slot k ≠ none) ∨ s.poolFree < ps.length) :
    ∃ t, exec (.preWaitEnd c) s = .next t ∧
      (∀ p, t.point p = if p ∈ ps then { s.point p with base := v, trim := if clear then 0 else (s.point p).trim } else s.point p) ∧
      RunDispatched s t c { r with snapped := r.snapped + ps.length } ∧
      t.record = s.record.hand .engine (some c) none (.movesSnapped 0 ps.length) ∧
      t = { s with lanes := t.lanes, points := t.points, runner := t.runner, record := t.record } := by
  have done := exec_preWaitEnd_level found waits held list points named
  rw [State.leaveAll_of_free ps s fun p mem => (free p mem).2,
    State.moveLevels_snaps s c 0 v time cv clear slow (no_room.imp_left State.freeSlot?_eq_none)] at done
  have runner : (s.onPoints ps (Point.jump v clear)).runner = s.runner := State.onPoints_runner _ _ _
  have read : ∀ p, (s.onPoints ps (Point.jump v clear)).point p =
      if p ∈ ps then { s.point p with base := v, trim := if clear then 0 else (s.point p).trim } else s.point p := fun p => by
    refine (State.point_onPoints ps _ s p distinct).trans ?_
    by_cases mem : p ∈ ps
    · rw [if_pos ⟨mem, (free p mem).1⟩, if_pos mem, Point.jump, clampBase_of_range low high]
    · rw [if_neg fun h => mem h.1, if_neg mem]
  have record : (s.onPoints ps (Point.jump v clear)).record = s.record := State.onPoints_record _ _ _
  have lanes : (s.onPoints ps (Point.jump v clear)).lanes = s.lanes := State.onPoints_lanes _ _ _
  have handed : Handed s (s.onPoints ps (Point.jump v clear)) := ⟨by apply State.ext_fields <;> simp⟩
  have quiet : (s.onPoints ps (Point.jump v clear)).slots = s.slots ∧ (s.onPoints ps (Point.jump v clear)).masks = s.masks ∧
      (s.onPoints ps (Point.jump v clear)).zones = s.zones := by simp
  generalize s.onPoints ps (Point.jump v clear) = u at *
  have snapped : u.snapReport (some c) c 0 ps.length =
      (u.onRun c fun r => { r with snapped := r.snapped + ps.length }).report .engine (some c) none (.movesSnapped 0 ps.length) := rfl
  have run : ∀ d, (u.snapReport (some c) c 0 ps.length).run? d =
      if d = c then (s.run? d).map fun r => { r with snapped := r.snapped + ps.length } else s.run? d := fun d => by
    rw [← State.run?_of_runs (congrArg Runner.runs runner) d]
    exact u.run?_onRun c d (fun r => { r with snapped := r.snapped + ps.length }) fun _ => rfl
  have frame := (u.snapReport (some c) c 0 ps.length).finishDispatch_frame c
  refine ⟨_, done, fun p => by rw [frame]; exact read p, ?_, ?_, ?_⟩
  · rw [snapped] at run ⊢
    refine .of_finish (x := { r with snapped := r.snapped + ps.length }) (.of_lanes lanes) ?_ (fun d other => ?_) ?_ no_slot rfl
      fun _ => rfl
    · have alone : RunsAlone u ((u.onRun c fun r => { r with snapped := r.snapped + ps.length }).report .engine (some c) none
          (.movesSnapped 0 ps.length)) := ⟨rfl⟩
      rw [((RunsAlone.of_runner runner).trans alone).runner]
    · rw [run, if_neg other]
    · rw [run, if_pos rfl, found]
      rfl
  · rw [frame]
    change u.record.hand _ _ _ _ = _
    rw [record]
  · have snap : Handed u (u.snapReport (some c) c 0 ps.length) := ⟨rfl⟩
    obtain ⟨slots, masks, zones⟩ := quiet
    have slots' : ((u.snapReport (some c) c 0 ps.length).finishDispatch c).slots = s.slots := by rw [frame]; exact slots
    have masks' : ((u.snapReport (some c) c 0 ps.length).finishDispatch c).masks = s.masks := by rw [frame]; exact masks
    have zones' : ((u.snapReport (some c) c 0 ps.length).finishDispatch c).zones = s.zones := by rw [frame]; exact zones
    refine ((handed.trans snap).trans (State.finishDispatch_handed c _)).frame.trans ?_
    rw [slots', masks', zones']

end

/-- A point that leaves a slot with other members (R46, R51). -/
theorem State.slot_leave_of_others {s : State} {p j : Nat} {f : FadeSlot} (member : (s.point p).membership = some j)
    (used : s.slot j = some f) (others : ∃ m ∈ f.members, m.point ≠ p) (i : Nat) : (s.leave p).slot i =
      if i = j then some { f with members := f.members.filter fun m => m.point != p } else s.slot i := by
  rw [State.slot_leave s p j i f member used]
  obtain ⟨m, mem, other⟩ := others
  have some_ : ¬ ∀ m ∈ f.members, m.point ∈ [p] := fun all => other (List.mem_singleton.mp (all m mem))
  have rest : (f.members.filter fun m => decide (m.point ∉ [p])) = f.members.filter fun m => m.point != p :=
    List.filter_congr fun m _ => by by_cases e : m.point = p <;> simp [e]
  rw [FadeSlot.without, if_neg some_, rest]

/-- A slot that gives a point up leaves the pool no fewer free entries (R39). -/
theorem State.poolFree_le_leave {s : State} {p j : Nat} {f : FadeSlot} (member : (s.point p).membership = some j)
    (used : s.slot j = some f) : s.poolFree ≤ (s.leave p).poolFree := by
  refine Nat.sub_le_sub_left ?_ _
  rw [State.poolUsed_eq_sum, State.poolUsed_eq_sum]
  refine Finset.sum_le_sum fun k _ => ?_
  rw [State.slot_leave s p j k f member used]
  split
  · next at_ =>
    rw [at_, used]
    exact FadeSlot.slotSize_without_le [p] f
  · exact Nat.le_refl _

/-- Settles O36: a move or HALT after the points it names have left their slots, in each way that they can. -/
theorem movesStartSnapAndTakeOver : Obligations.MovesStartSnapAndTakeOver := by
  intro s c r rec found waits no_slot held
  refine ⟨fun target ps v time cv clear list slow low high names named distinct free => ⟨?_, ?_⟩,
    fun p j f below _ member used others => ⟨?_, ?_⟩, fun p j f below _ member used last ownerless list => ?_,
    fun ok cues target ps names inside => ⟨fun list => ?_, ?_⟩⟩
  · intro k below empty lowest room
    have points := Store.resolve_of_names (fun p mem => (free p mem).1) names
    have stays : s.leaveAll ps = s := State.leaveAll_of_free ps s fun p mem => (free p mem).2
    obtain ⟨t, done, slot, slots, point, _, moves, _, told, frame⟩ :=
      exec_preWaitEnd_starts (x := r) found waits held list points named distinct (fun p mem => (free p mem).1) slow below
        (by rw [stays]; exact State.freeSlot?_eq_some below empty lowest) (by rw [stays]; exact room) (by rw [stays]; exact found)
        no_slot rfl fun _ => rfl
    rw [stays] at slots
    exact ⟨t, done, slot, slots, point, moves.plain, moves.afterEnd, told, frame⟩
  · intro no_room
    exact exec_preWaitEnd_snaps found waits no_slot held list (Store.resolve_of_names (fun p mem => (free p mem).1) names) named
      distinct free slow low high no_room
  · intro v time cv k list slow _ _ inside empty lowest room
    have slots := State.slot_leave_of_others member used others
    have apart : k ≠ j := fun same => by rw [same, used] at empty; cases empty
    have runner : (s.leave p).runner = s.runner := by rw [State.leave_of_others member used others]; rfl
    obtain ⟨t, done, slot, rest, point, _⟩ :=
      exec_preWaitEnd_starts (x := r) (ps := [p]) found waits held list (s.store.resolve_point below) (List.cons_ne_nil _ _)
        (List.nodup_singleton p) (by simpa using below) slow inside
        (State.freeSlot?_eq_some inside ((slots k).trans ((if_neg apart).trans empty)) fun i less => by
          refine fun none_ => lowest i less ?_
          have read := (slots i).symm.trans none_
          by_cases at_ : i = j
          · rw [if_pos at_] at read
            cases read
          · rwa [if_neg at_] at read)
        (Nat.le_trans room (State.poolFree_le_leave member used))
        ((State.run?_of_runs (congrArg Runner.runs runner) c).trans found) no_slot rfl fun _ => rfl
    refine ⟨t, done, ?_, slot, fun i other other' => ?_, fun q => ?_⟩
    · exact (rest j (Ne.symm apart)).trans ((slots j).trans (if_pos rfl))
    · exact (rest i other').trans ((slots i).trans (if_neg other))
    · rw [point]
      simp only [List.mem_singleton]
      rfl
  · intro list
    have slots := State.slot_leave_of_others member used others
    have runner : (s.leave p).runner = s.runner := by rw [State.leave_of_others member used others]; rfl
    obtain ⟨t, done, dispatched, rest, point, frame⟩ :=
      exec_preWaitEnd_halts (x := r) found waits held list (s.store.resolve_point below)
        ((State.run?_of_runs (congrArg Runner.runs runner) c).trans found) no_slot rfl (fun _ => rfl)
        (congrArg Runner.runs runner)
    refine ⟨t, done, dispatched, ?_, fun i other => ?_, fun q => ?_, frame⟩
    · exact (rest j).trans ((slots j).trans (if_pos rfl))
    · exact (rest i).trans ((slots i).trans (if_neg other))
    · rw [point]
      simp only [List.mem_singleton]
  · have emptied := State.leave_of_last member used last
    rw [ownerless] at emptied
    have runner : (s.leave p).runner = s.runner := by rw [emptied]; rfl
    have slots : ∀ i, (s.leave p).slot i = if i = j then none else s.slot i := fun i => by
      rw [State.slot_leave s p j i f member used, FadeSlot.without,
        if_pos fun m mem => List.mem_singleton.mpr (last m mem)]
    obtain ⟨t, done, dispatched, rest, point, frame⟩ :=
      exec_preWaitEnd_halts (x := r) found waits held list (s.store.resolve_point below)
        ((State.run?_of_runs (congrArg Runner.runs runner) c).trans found) no_slot rfl (fun _ => rfl)
        (congrArg Runner.runs runner)
    refine ⟨t, done, dispatched, ?_, fun i other => ?_, fun q => ?_, frame⟩
    · exact (rest j).trans ((slots j).trans (if_pos rfl))
    · exact (rest i).trans ((slots i).trans (if_neg other))
    · rw [point]
      simp only [List.mem_singleton]
  · have runs := ok.runs_leaveAll inside cues
    obtain ⟨x, left_, same, kept⟩ := Run.afterReports_waiting waits no_slot (s.emptiedOf ps c)
    have run : (s.leaveAll ps).run? c = some x := by
      rw [State.run?, runs, State.run?_runsAfter cues, found]
      exact left_
    obtain ⟨t, done, dispatched, slots, point, frame⟩ :=
      exec_preWaitEnd_halts found waits held list (Store.resolve_of_names inside names) run
        ((congrArg Run.slots same :).trans no_slot) same kept runs
    exact ⟨t, done, dispatched, fun k => (slots k).trans (ok.slot_leaveAll inside k), point, frame⟩
  · intro v time cv clear k list slow _ _ named distinct below empty lowest room
    have runs := ok.runs_leaveAll inside cues
    have slots := ok.slot_leaveAll inside
    obtain ⟨x, left_, same, kept⟩ := Run.afterReports_waiting waits no_slot (s.emptiedOf ps c)
    have run : ∀ d, (s.leaveAll ps).run? d = (s.run? d).bind fun x => x.afterReports (s.emptiedOf ps d) := fun d => by
      rw [State.run?, runs, State.run?_runsAfter cues]
    obtain ⟨t, done, slot, rest, point, others, moves, runner, told, frame⟩ :=
      exec_preWaitEnd_starts (x := x) found waits held list (Store.resolve_of_names inside names) named distinct inside slow below
        (State.freeSlot?_eq_some below ((slots k).trans empty) fun j less => by rw [slots]; exact lowest j less)
        (Nat.le_trans room (ok.poolFree_leaveAll inside distinct)) (by rw [run, found]; exact left_)
        ((congrArg Run.slots same :).trans no_slot) same kept
    exact ⟨t, done, slot, fun j other => (rest j other).trans (slots j), point, fun d other => (others d other).trans (run d),
      moves.plain, moves.afterStart, moves.afterEnd, moves.beats, runner, told, frame⟩

end Sys2Proof.Machine
end

section
/-! LEVEL SET (1.4): points written and grabbed out of their slots. -/

namespace Sys2Proof.Machine

/-! ## States alike but for bases and trims -/

/-- `t` differs from `s` by no more than the bases and trims of points. -/
structure AlikeInFades (s t : State) : Prop where
  frame : t = { s with points := t.points }
  membership : ∀ p, (t.point p).membership = (s.point p).membership

theorem State.reportFreed_withPoints (owner : Option Nat) (s : State) (points : Table Point Config.points) :
    State.reportFreed owner { s with points := points } = { s.reportFreed owner with points := points } := by
  cases owner with
  | none => rfl
  | some c =>
    change State.checkCompletion c { s.onRun c Run.slotFreed with points := points } =
      { (s.onRun c Run.slotFreed).checkCompletion c with points := points }
    generalize s.onRun c Run.slotFreed = u
    have same : State.run? { u with points := points } c = u.run? c := rfl
    unfold State.checkCompletion
    rw [same]
    cases u.run? c with
    | none => rfl
    | some r =>
      dsimp only
      split <;> rfl

namespace AlikeInFades

theorem refl (s : State) : AlikeInFades s s := ⟨rfl, fun _ => rfl⟩

section
variable {s t : State} (alike : AlikeInFades s t)
include alike

theorem setBase (p : Nat) (v : Int) : AlikeInFades s (t.setBase p v) := by
  refine ⟨?_, fun q => ?_⟩
  · have frame := alike.frame
    generalize t.points = points at frame
    subst frame
    rfl
  · rw [← alike.membership, State.point_setBase]
    split <;> rfl

theorem slot (k : Nat) : t.slot k = s.slot k := by rw [alike.frame]; rfl

theorem leave (p : Nat) : AlikeInFades (s.leave p) (t.leave p) := by
  refine ⟨?_, fun q => ?_⟩
  · have member := alike.membership p
    have frame := alike.frame
    generalize t.points = points at frame
    subst frame
    unfold State.leave
    rw [member]
    cases (s.point p).membership with
    | none => rfl
    | some k =>
      have same : State.slot { s with points := points } k = s.slot k := rfl
      dsimp only
      rw [same]
      cases s.slot k with
      | none => rfl
      | some f =>
        dsimp only
        split
        · let left_ (points : Table Point Config.points) := points.update p fun q => { q with membership := none }
          have first := State.reportFreed_withPoints f.owner (s.setSlot k none) (left_ points)
          have second := State.reportFreed_withPoints f.owner (s.setSlot k none) (left_ s.points)
          have both := first.trans (congrArg (fun u : State => { u with points := left_ points }) second.symm)
          exact both.trans (congrArg (fun x => { State.reportFreed f.owner ((s.setMembership p none).setSlot k none) with points := x })
            (congrArg State.points both).symm)
        · rfl
  · rw [State.point_leave, State.point_leave]
    by_cases same : q = p
    · rw [if_pos same, if_pos same]
    · rw [if_neg same, if_neg same, alike.membership]

theorem levelSet (v : Int) (ps : List Nat) :
    AlikeInFades (s.leaveAll ps) (ps.foldl (fun s p => State.levelSetPoint v p s) t) := by
  unfold State.leaveAll
  induction ps generalizing s t with
  | nil => exact alike
  | cons p ps ih => exact ih ((alike.setBase p v).leave p)

end

end AlikeInFades

theorem State.point_levelSet (v : Int) (ps : List Nat) (s : State) {q : Nat} (below : q < Config.points) :
    (ps.foldl (fun s p => State.levelSetPoint v p s) s).point q =
      if q ∈ ps then { s.point q with base := clampBase v, membership := none } else s.point q := by
  induction ps generalizing s with
  | nil => rfl
  | cons p ps ih =>
    rw [List.foldl_cons, ih, State.levelSetPoint, State.point_leave, State.point_setBase]
    by_cases head : q = p
    · simp only [head, if_true, List.mem_cons, true_or, head ▸ below, and_self, ite_self]
    · simp only [head, false_and, if_false, List.mem_cons, false_or]

/-! ## Runs lost by leaving -/

/-- RUN is added to every lane exactly where the list has lost a run. -/
structure RunsLost (s t : State) : Prop where
  fewer : t.runner.runs.length ≤ s.runner.runs.length
  noticed : Noticed s t (if t.runner.runs.length < s.runner.runs.length then [.run] else [])

namespace RunsLost

theorem of_same {s t : State} (lanes : t.lanes = s.lanes) (length : t.runner.runs.length = s.runner.runs.length) : RunsLost s t := by
  refine ⟨length.le, ?_⟩
  rw [if_neg length.not_lt]
  exact (Noticed.refl s).of_lanes lanes

theorem trans {s t u : State} (h : RunsLost s t) (g : RunsLost t u) : RunsLost s u := by
  have fewer := g.fewer.trans h.fewer
  refine ⟨fewer, ?_⟩
  have first := h.noticed
  have second := g.noticed
  have both := first.trans second
  have some_ := h.fewer
  have more := g.fewer
  by_cases lost : t.runner.runs.length < s.runner.runs.length
  · rw [if_pos (Nat.lt_of_le_of_lt more lost)]
    rw [if_pos lost] at first
    by_cases again : u.runner.runs.length < t.runner.runs.length
    · rw [if_pos again] at second
      intro m
      rw [second m, first m]
      exact LaneState.notify_notify_self _ _
    · rw [if_neg again] at second
      exact first.trans second
  · have same : t.runner.runs.length = s.runner.runs.length := by omega
    rw [if_neg lost] at first
    rw [← same]
    exact first.trans second

theorem checkCompletion (s : State) (c : Nat) : RunsLost s (s.checkCompletion c) := by
  rcases s.checkCompletion_cases c with e | ⟨r, found, _, e⟩
  · rw [e]
    exact .of_same rfl rfl
  · have less : (s.dropRun c).runner.runs.length < s.runner.runs.length := by
      refine List.length_filter_lt_length_iff_exists.mpr ⟨r, List.mem_of_find?_eq_some found, ?_⟩
      simp [State.run?_cue s c r found]
    rw [e]
    refine ⟨less.le, ?_⟩
    rw [if_pos less]
    exact fun m => State.lane_noticeAll _ .run m

theorem reportFreed (owner : Option Nat) (s : State) : RunsLost s (s.reportFreed owner) := by
  cases owner with
  | none => exact .of_same rfl rfl
  | some c =>
    have freed : RunsLost s (s.onRun c Run.slotFreed) := .of_same rfl (List.length_map _)
    exact freed.trans (.checkCompletion _ c)

theorem leave (p : Nat) (s : State) : RunsLost s (s.leave p) := by
  unfold State.leave
  split
  · exact .of_same rfl rfl
  · next k _ =>
    split
    · exact .of_same rfl rfl
    · next f _ =>
      dsimp only
      split
      · have freed : RunsLost s ((s.setMembership p none).setSlot k none) := .of_same rfl rfl
        exact freed.trans (.reportFreed f.owner _)
      · exact .of_same rfl rfl

theorem leaveAll (ps : List Nat) (s : State) : RunsLost s (s.leaveAll ps) := by
  unfold State.leaveAll
  induction ps generalizing s with
  | nil => exact .of_same rfl rfl
  | cons p ps ih => exact (leave p s).trans (ih _)

end RunsLost

/-- Points that empty no slot with an owner leave the runner as it was. -/
theorem FadesOk.runner_leaveAll {s : State} (ok : FadesOk s) {ps : List Nat} (inside : ∀ p ∈ ps, p < 1056)
    (quiet : ∀ c, s.emptiedOf ps c = 0) : (s.leaveAll ps).runner = s.runner := by
  induction ps generalizing s with
  | nil => rfl
  | cons p ps ih =>
    have below := inside p List.mem_cons_self
    have parts := fun c => Nat.add_eq_zero_iff.mp ((ok.emptiedOf_cons (ps := ps) below c).symm.trans (quiet c))
    refine (ih (ok.leave p) (fun q mem => inside q (List.mem_cons_of_mem p mem)) fun c => (parts c).2).trans ?_
    have none_ := fun c => (ok.emptiedOf_single below c).symm.trans (parts c).1
    cases member : (s.point p).membership with
    | none => rw [State.leave_of_free member]
    | some k =>
      obtain ⟨f, used, _⟩ := (ok.membership_iff below k).mp member
      rw [member, Option.bind_some, used] at none_
      by_cases last : ∀ m ∈ f.members, m.point = p
      · rw [State.leave_of_last member used last]
        cases owner : f.owner with
        | none => rfl
        | some c =>
          have one := none_ c
          dsimp only at one
          rw [if_pos ⟨owner, last⟩] at one
          cases one
      · rw [State.leave_of_others member used (by simpa using last)]
        rfl

theorem exec_levelSet {l : Lane} (full : l ≠ .p) (tag : Byte) (g : Target) (v : Int) (s : State) : exec (.levelSet l tag g v) s =
    .next (levelRequest (.levelSet l tag g v) false g (fun _ _ => v != clampBase v) (State.levelSetPoint v) s) :=
  fullOnly_full l _ _ _ full

/-- Settles O13: the points named are written, and leave their slots as a takeover's do. -/
theorem levelSetWritesBasesAndGrabs : Obligations.LevelSetWritesBasesAndGrabs := by
  intro l tag g v s full
  have taken := exec_levelSet full tag g v s
  refine ⟨fun nothing => ?_, fun not1 not2 => ?_, fun ps named => ?_⟩
  · exact .of_answer rfl (taken.trans (congrArg _ (levelRequest_refused (Store.resolveRequest_of_namesNothing nothing))))
  · exact .of_answer rfl (taken.trans (congrArg _ (levelRequest_refused (Store.resolveRequest_of_other not1 not2 (.inl rfl)))))
  rw [levelRequest_served named, bne_clampBase] at taken
  have alike := (AlikeInFades.refl s).levelSet v ps
  have read := fun q (below : q < 1056) => State.point_levelSet v ps s below
  generalize ps.foldl (fun s p => State.levelSetPoint v p s) s = u at alike read taken
  have runner : u.runner = (s.leaveAll ps).runner := by rw [alike.frame]
  have lost := RunsLost.leaveAll ps s
  have noticed : Noticed s u (if (s.leaveAll ps).runner.runs.length < s.runner.runs.length then [.run] else []) :=
    lost.noticed.of_lanes (by rw [alike.frame])
  refine ⟨_, if (s.leaveAll ps).runner.runs.length < s.runner.runs.length then [.run] else [], taken, fun p below => ?_, fun ok inside => ⟨fun k => ?_, fun quiet => ?_, fun distinct => ?_⟩, ?_,
    ?_, ?_⟩
  · rw [State.answer_frame]
    exact read p below
  · rw [State.answer_frame]
    exact (alike.slot k).trans (ok.slot_leaveAll inside k)
  · have same := ok.runner_leaveAll inside quiet
    rw [State.answer_runner, runner, same, if_neg (Nat.lt_irrefl _)]
    exact ⟨rfl, rfl⟩
  · rw [State.answer_runner, runner, ← ok.runs_leaveAll inside distinct]
    exact ⟨(s.leaveAll_told ps).2.runner, rfl⟩
  · split
    · exact .inr rfl
    · exact .inl rfl
  · rw [levelAnswer_congr (State.answer_points ..)]
    exact .of_answer rfl noticed _ _
  · have frame := alike.frame
    rw [State.answer_frame]
    generalize u.points = points at frame
    subst frame
    apply State.ext_fields <;> simp

end Sys2Proof.Machine
end

section
/-! GO taken: room made, the run at the tail, standby moved on (5.3, 5.7). -/

namespace Sys2Proof.Machine

/-! ## Orphaned slots (R97) -/

/-- A slot whose owner, if cue `c`, is none. -/
def FadeSlot.orphaned (c : Nat) (f : FadeSlot) : FadeSlot := if f.owner = some c then { f with owner := none } else f

theorem State.slot_orphan (s : State) (c k : Nat) : (s.orphan c).slot k = (s.slot k).map (FadeSlot.orphaned c) := by
  rcases Nat.lt_or_ge k Config.slots with below | above
  · exact Table.getD_mapIdx _ _ _ _ _ below
  · rw [State.slot_of_le _ above, State.slot_of_le _ above]
    rfl

theorem State.poolFree_orphan (s : State) (c : Nat) : (s.orphan c).poolFree = s.poolFree := by
  have sizes : ∀ k, slotSize ((s.orphan c).slot k) = slotSize (s.slot k) := fun k => by
    rw [State.slot_orphan]
    cases s.slot k with
    | none => rfl
    | some f =>
      unfold FadeSlot.orphaned slotSize
      dsimp only [Option.map_some]
      split <;> rfl
  simp only [State.poolFree, State.poolUsed_eq_sum, sizes]

/-! ## Retirement (R97) -/

section
variable {s : State} {c : Nat} {r : Run} (found : s.run? c = some r) (cause : RetireCause) (origin : Origin)
include found

theorem State.retire_of_active (active : r.state = .active) : s.retire c cause origin =
    ((s.orphan c).dropRun c).report origin.logLane (some c) none (.runRetired cause false) := by
  have uncut : (r.state == RunState.preWait) = false := by rw [active]; rfl
  simp only [State.retire, found, uncut, Bool.false_eq_true, if_false]

theorem State.retire_of_waiting (waits : r.state = .preWait) : s.retire c cause origin =
    (State.dropRun c ((handActions none c 0 (s.actionsOf c) (s.orphan c)).noticeAll .run)).report origin.logLane (some c) none
      (.runRetired cause true) := by
  have cut : (r.state == RunState.preWait) = true := by rw [waits]; rfl
  simp only [State.retire, found, cut, if_true]

theorem State.length_dropRun_lt : (s.dropRun c).runner.runs.length < s.runner.runs.length := by
  refine List.length_filter_lt_length_iff_exists.mpr ⟨r, List.mem_of_find?_eq_some found, ?_⟩
  simp [State.run?_cue s c r found]

end

theorem State.makeRoom_of_retired {s w : State} {c : Nat} {origin : Origin} (retired : s.retire c .sameCue origin = w)
    (few : w.runner.runs.length < 16) : s.makeRoom c origin = w := by
  rw [State.makeRoom, retired]
  cases runs : w.runner.runs with
  | nil => rfl
  | cons r rs =>
    rw [runs, List.length_cons] at few
    exact if_neg (by change ¬ 16 ≤ _; omega)

theorem State.makeRoom_of_full {s : State} {c : Nat} {r : Run} {rs : List Run} (absent : s.run? c = none)
    (runs : s.runner.runs = r :: rs) (full : rs.length = 15) (origin : Origin) :
    s.makeRoom c origin = s.retire r.cue .listFull origin := by
  rw [State.makeRoom, State.retire_of_absent absent, runs]
  exact if_pos (by change 16 ≤ _; omega)

/-! ## An ownerless move -/

section
variable {s : State} {k p : Nat} (v : Int) (time : Nat) (cv : Curve) (below : k < 32) (inside : p < 1056)
include below inside

theorem State.startMove_ownerless :
    ((s.startMove k none 0 [p] v time cv false).slot k = some ⟨none, 0, v, time, cv, 0, [⟨p, (s.point p).base⟩]⟩) ∧
      (∀ j, j ≠ k → (s.startMove k none 0 [p] v time cv false).slot j = s.slot j) ∧
      (∀ q, (s.startMove k none 0 [p] v time cv false).point q =
        if q = p then { s.point q with membership := some k } else s.point q) ∧
      (s.startMove k none 0 [p] v time cv false).runner = s.runner := by
  refine ⟨(State.slot_setSlot _ k k _).trans (if_pos ⟨rfl, below⟩), fun j other => ?_, fun q => ?_, State.onPoints_runner _ _ _⟩
  · exact (State.slot_setSlot _ k j _).trans (if_neg fun h => other h.1)
  · refine (State.point_onPoints [p] _ s q (List.nodup_singleton p)).trans ?_
    by_cases same : q = p
    · rw [if_pos ⟨List.mem_singleton.mpr same, same ▸ inside⟩, if_pos same]
      rfl
    · rw [if_neg fun h => same (List.mem_singleton.mp h.1), if_neg same]

end

/-! ## GO -/

theorem State.awaitsCurtain_eq (r : Record) : r.awaitsCurtain = decide (r.state = .armed ∧ r.startMode = some .curtain) := by
  rw [Record.awaitsCurtain, Bool.eq_iff_iff, decide_eq_true_eq, Bool.and_eq_true, beq_iff_eq, beq_iff_eq]

section
variable (l : Lane) (tag : Byte) {e : Option Nat} {s : State} {c : Nat} {rec : Cue} (standby : s.runner.standby = some c)
  (held : s.store.cue? c = some rec) (expected : e = none ∨ (e = some c ∧ 1 ≤ c ∧ c ≤ 9999999))
  (may : l = .p → rec.promptCallable = true)
include standby held expected may

theorem exec_go_takes : exec (.go l tag e) s = .next ((s.takeGo rec (.lane l)).answer (.go l tag e) .ok
    (be 3 c ++ be 3 ((s.store.nextAfter c).getD 0) ++ [flag (s.goStarts rec)])) := by
  have number := Store.cue?_number _ _ _ held
  have inRange : ∀ x, e = some x → 1 ≤ x ∧ x ≤ 9999999 := fun x named => by
    rcases expected with absent | ⟨same, low, high⟩
    · rw [absent] at named
      cases named
    · cases same.symm.trans named
      exact ⟨low, high⟩
  have current : s.isStale e = false := State.isStale_eq_false standby (expected.imp_right fun h => h.1)
  have allowed : mayGo l rec = true := by
    cases l with
    | a => rfl
    | b => rfl
    | p => exact may rfl
  have taken := exec_go_taken l tag inRange ((State.standbyCue_of_standby standby).trans held) current allowed
  rw [number] at taken
  exact taken

/-- A GO of a cue with a pre-wait and no curtain flag, once there is room for its run. -/
theorem exec_go_with_room (plain : rec.curtain = false) (waits : 1 ≤ rec.preWait) {w : State}
    (room : s.makeRoom c (.lane l) = w) (noticed : Noticed s w [.run]) (store : w.store = s.store) (clock : w.record.clock = s.record.clock) :
    ∃ t, exec (.go l tag e) s = .next t ∧
      t.runner = { w.runner with
        runs := w.runner.runs ++ [newRun rec (.lane l)], standby := s.store.nextAfter c, lastGo := some ⟨c, .lane l, s.record.clock⟩ } ∧
      t.record = w.record.hand (.lane l) (some c) none (.go (s.store.nextAfter c)) ∧
      Answered s t (.go l tag e) .ok (be 3 c ++ be 3 ((s.store.nextAfter c).getD 0) ++ [0]) [.run, .standby] ∧
      t = { w with lanes := t.lanes, runner := t.runner, record := t.record } := by
  have number := Store.cue?_number _ _ _ held
  have taken := exec_go_takes l tag standby held expected may
  rw [State.goStarts, plain] at taken
  rw [State.takeGo_plain (t := w) (by rw [number]; exact room) plain waits] at taken
  have told : Noticed s (w.gone rec (.lane l)) [.run, .standby] := fun m => by
    rw [w.gone_noticed rec (.lane l) m, noticed m]
    exact (LaneState.notify_comm _ .standby .run).trans (congrArg _ (LaneState.notify_notify_self _ _))
  refine ⟨_, taken, ?_, ?_, .of_answer (requestFrame_go l tag e) told _ _, ?_⟩
  · rw [State.answer_runner, State.gone_runner, store, number, clock]
  · rw [State.answer_record, State.gone_record, store, number]
    rfl
  · rw [State.answer_frame, State.gone_frame]

end

/-- A GO once there is room, before any dispatch: steps 3 to 8 of R85. -/
def State.went (rec : Cue) (origin : Origin) (s : State) : State :=
  ((s.addRun rec origin).startByCurtain rec origin).recordGo rec origin

section
variable {s : State} {rec : Cue} (l : Lane)

theorem State.takeGo_with_room {w : State} {origin : Origin} (room : s.makeRoom rec.number origin = w) :
    s.takeGo rec origin = if rec.preWait = 0 then (w.went rec origin).dispatch rec.number else w.went rec origin := by
  rw [State.takeGo, room]
  rfl

theorem State.went_plain (not_ : s.goStarts rec = false) : s.went rec (.lane l) = s.gone rec (.lane l) := by
  have quiet : (s.addRun rec (.lane l)).startByCurtain rec (.lane l) = s.addRun rec (.lane l) := if_neg (by
    change ¬ s.goStarts rec = true
    rw [not_]
    exact Bool.false_ne_true)
  rw [State.went, quiet, State.gone]

variable (starts : s.goStarts rec = true)
include starts

theorem State.went_starts : s.went rec (.lane l) =
    ((s.addRun rec (.lane l)).startPerformance (.lane l) (some rec.number)).recordGo rec (.lane l) :=
  congrArg (State.recordGo rec (.lane l)) (if_pos starts)

theorem State.record_started : ((s.addRun rec (.lane l)).startPerformance (.lane l) (some rec.number)).record =
    { s.record with state := .running, clock := 0, delayRemaining := 0 }.hand (.lane l) (some rec.number) none
      (.performanceStart .curtain) := by
  rw [State.goStarts, Bool.and_eq_true, State.awaitsCurtain_eq, decide_eq_true_eq] at starts
  exact State.startPerformance_record (s := s.addRun rec (.lane l)) starts.2.2 (.lane l) (some rec.number)

theorem State.went_starts_noticed : Noticed s (s.went rec (.lane l)) [.performance, .standby, .run] := by
  rw [State.went_starts l starts]
  have begun : Noticed s ((s.addRun rec (.lane l)).startPerformance (.lane l) (some rec.number)) [.performance] :=
    ((Noticed.refl s).of_lanes rfl).noticeAll .performance
  have marked : Noticed s (State.noticeAll .standby
      (((s.addRun rec (.lane l)).startPerformance (.lane l) (some rec.number)))) [.performance, .standby] := begun.noticeAll .standby
  exact (marked.noticeAll .run).of_lanes rfl

theorem State.went_starts_runner : (s.went rec (.lane l)).runner = { s.runner with
    runs := s.runner.runs ++ [newRun rec (.lane l)], standby := s.store.nextAfter rec.number,
    lastGo := some ⟨rec.number, .lane l, 0⟩ } := by
  have clock : ((s.addRun rec (.lane l)).startPerformance (.lane l) (some rec.number)).record.clock = 0 := by
    rw [State.record_started l starts, Record.hand_clock]
  have last := congrArg (fun x => (some (LastGo.mk rec.number (.lane l) x))) clock
  rw [State.went_starts l starts]
  exact congrArg (fun x => { s.runner with
    runs := s.runner.runs ++ [newRun rec (.lane l)], standby := s.store.nextAfter rec.number, lastGo := x }) last

theorem State.went_starts_record : (s.went rec (.lane l)).record =
    ({ s.record with state := .running, clock := 0, delayRemaining := 0 }.hand (.lane l) (some rec.number) none
      (.performanceStart .curtain)).hand (.lane l) (some rec.number) none (.go (s.store.nextAfter rec.number)) := by
  rw [State.went_starts l starts, ← State.record_started l starts]
  rfl

end

theorem State.went_frame (s : State) (rec : Cue) (origin : Origin) : s.went rec origin = { s with
    lanes := (s.went rec origin).lanes, runner := (s.went rec origin).runner, record := (s.went rec origin).record } := by
  unfold State.went State.startByCurtain
  split <;> rfl

/-- What a retirement before a GO leaves, where no pre-wait is cut (R97). -/
theorem State.retire_active_leaves {s : State} {c : Nat} {r : Run} (found : s.run? c = some r) (active : r.state = .active)
    (cause : RetireCause) (l : Lane) :
    let w := s.retire c cause (.lane l)
    w.runner = { s.runner with runs := s.runner.runs.filter fun x => x.cue != c } ∧
      (∀ k, w.slot k = (s.slot k).map fun f => if f.owner = some c then { f with owner := none } else f) ∧
      w.record = s.record.hand (.lane l) (some c) none (.runRetired cause false) ∧ Noticed s w [.run] ∧
      w = { s with lanes := w.lanes, slots := w.slots, runner := w.runner, record := w.record } := by
  intro w
  have at_ : w = _ := State.retire_of_active found cause (.lane l) active
  rw [at_]
  exact ⟨rfl, s.slot_orphan c, rfl, ((Noticed.refl s).of_lanes rfl).noticeAll .run, rfl⟩

end Sys2Proof.Machine
end

section
/-! GO taken: the statement (5.3). -/

namespace Sys2Proof.Machine

/-- What a retirement leaves where it cuts a pre-wait: `h` is the state as the run's actions leave it (R97). -/
theorem State.retire_cut_leaves {s h : State} {c : Nat} {r : Run} {rec : Cue} (found : s.run? c = some r)
    (waits : r.state = .preWait) (held : s.store.cue? c = some rec) (l : Lane)
    (handed : handActions none c 0 rec.actions (s.orphan c) = h) (lanes : h.lanes = s.lanes)
    (runner : h.runner = { s.runner with lines := h.runner.lines }) (record : h.record = s.record) :
    let w := s.retire c .sameCue (.lane l)
    w.runner = { s.runner with runs := s.runner.runs.filter fun x => x.cue != c, lines := h.runner.lines } ∧
      w.record = s.record.hand (.lane l) (some c) none (.runRetired .sameCue true) ∧ Noticed s w [.run] ∧
      w = { h with lanes := w.lanes, runner := w.runner, record := w.record } := by
  intro w
  have acts : s.actionsOf c = rec.actions := by rw [State.actionsOf, held]; rfl
  have at_ : w = _ := State.retire_of_waiting found .sameCue (.lane l) waits
  rw [acts, handed] at at_
  rw [at_]
  refine ⟨?_, ?_, ?_, rfl⟩
  · have alone : RunsAlone h (State.dropRun c (h.noticeAll .run)) := ⟨rfl⟩
    have runs : h.runner.runs = s.runner.runs := by rw [runner]
    refine Eq.trans alone.runner ?_
    rw [runner, ← runs]
    rfl
  · change h.record.hand _ _ _ _ = _
    rw [record]
    rfl
  · intro m
    refine (State.lane_noticeAll _ .run m).trans ?_
    change (((h.noticeAll .run).lanes.get m).notify .run) = _
    rw [State.lane_noticeAll, LaneState.notify_notify_self, lanes]
    rfl

section
variable {s : State} {c : Nat} {rec : Cue}

/-- The actions of a cut pre-wait, each whole at once, from the state with the run's slots orphaned. -/
theorem handActions_cut_atOnce {acts : List Action} (once : ∀ a ∈ acts, a.AtOnce s) :
    ActedAtOnce (s.orphan c) (handActions none c 0 acts (s.orphan c)) acts :=
  handActions_atOnce (s.orphan c) none c 0 once

/-- The one move of a cut pre-wait, which starts with owner none. -/
theorem handActions_cut_move {p : Nat} {v : Int} {time : Nat} {cv : Curve} (inside : p < 1056)
    (free : (s.point p).membership = none) (slow : 1 ≤ time) (empty : s.slot 0 = none) (room : 1 ≤ s.poolFree) :
    handActions none c 0 [.level (.point p) v time cv false] (s.orphan c) =
      (s.orphan c).startMove 0 none 0 [p] v time cv false := by
  have stays : (s.orphan c).leaveAll [p] = s.orphan c := State.leave_of_free free
  have free_slot : (s.orphan c).freeSlot? = some 0 := by
    refine State.freeSlot?_eq_some (by decide) ?_ fun j less => absurd less (Nat.not_lt_zero j)
    rw [State.slot_orphan, empty]
    rfl
  refine ((s.orphan c).levelAction_move c 0 v time cv false ((s.orphan c).store.resolve_point inside) (List.cons_ne_nil _ _)
    none).trans ?_
  rw [stays]
  exact (s.orphan c).moveLevels_starts c 0 v time cv false slow free_slot (by rw [State.poolFree_orphan]; exact room)

end

theorem newRun_of_number {rec : Cue} {c : Nat} (number : rec.number = c) (l : Lane) : newRun rec (.lane l) =
    { cue := c, origin := .lane l, state := .preWait, preWait := rec.preWait, follow := rec.follow,
      followState := (match rec.follow with | .beats _ => .counting | _ => .none),
      followRemaining := (match rec.follow with | .beats n => n | _ => 0), slots := 0, snapped := 0 } := by
  subst number
  rfl

section
variable (l : Lane) (tag : Byte) {e : Option Nat} {s : State} {c : Nat} {r : Run} {rec : Cue} (standby : s.runner.standby = some c)
  (held : s.store.cue? c = some rec) (expected : e = none ∨ (e = some c ∧ 1 ≤ c ∧ c ≤ 9999999))
  (may : l = .p → rec.promptCallable = true) (found : s.run? c = some r) (cut : r.state = .preWait)
  (many : s.runner.runs.length ≤ 16) (plain : rec.curtain = false) (waits : 1 ≤ rec.preWait)
include standby held expected may found cut many plain waits

/-- A GO that cuts its cue's pre-wait: `h` is the state as the run's actions leave it (R85, R97). -/
theorem exec_go_cut {h : State} (handed : handActions none c 0 rec.actions (s.orphan c) = h) (lanes : h.lanes = s.lanes)
    (runner : h.runner = { s.runner with lines := h.runner.lines }) (record : h.record = s.record) (store : h.store = s.store) :
    ∃ t, exec (.go l tag e) s = .next t ∧
      t.runner = { s.runner with
        runs := (s.runner.runs.filter fun x => x.cue != c) ++ [newRun rec (.lane l)], standby := s.store.nextAfter c,
        lastGo := some ⟨c, .lane l, s.record.clock⟩, lines := h.runner.lines } ∧
      t.record = (s.record.hand (.lane l) (some c) none (.runRetired .sameCue true)).hand (.lane l) (some c) none
        (.go (s.store.nextAfter c)) ∧
      Answered s t (.go l tag e) .ok (be 3 c ++ be 3 ((s.store.nextAfter c).getD 0) ++ [0]) [.run, .standby] ∧
      t = { h with lanes := t.lanes, runner := t.runner, record := t.record } := by
  obtain ⟨runner', record', told, frame⟩ := State.retire_cut_leaves found cut held l handed lanes runner record
  have few : (s.retire c .sameCue (.lane l)).runner.runs.length < 16 := by
    rw [runner']
    exact Nat.lt_of_lt_of_le (State.length_dropRun_lt found) many
  obtain ⟨t, done, gone, logged, answered, last⟩ := exec_go_with_room l tag standby held expected may plain waits
    (State.makeRoom_of_retired rfl few) told (by rw [frame]; exact store) (by rw [record', Record.hand_clock])
  refine ⟨t, done, ?_, ?_, answered, ?_⟩
  · rw [gone, runner']
  · rw [logged, record']
  · rw [last, frame]

end

/-- Settles O33: room made in each of its ways, and then the GO itself. -/
theorem goTakesStandbyInOrder : Obligations.GoTakesStandbyInOrder := by
  intro l tag e s c rec standby held expected may made next starts
  have number := Store.cue?_number _ _ _ held
  have new : newRun rec (.lane l) = made := newRun_of_number number l
  have begins : s.goStarts rec = starts := by rw [State.goStarts, State.awaitsCurtain_eq]
  clear_value made starts
  subst new begins
  have with_room := fun plain waits w => exec_go_with_room l tag standby held expected may plain waits (w := w)
  refine ⟨fun absent few => ?_, fun r found active many plain waits => ?_, fun r rs absent runs full active plain waits => ?_,
    fun r found cut many plain waits acts => ?_⟩
  · have room : s.makeRoom rec.number (.lane l) = s := State.makeRoom_of_few (by rw [number]; exact absent) few _
    have taken := exec_go_takes l tag standby held expected may
    rw [State.takeGo_with_room room, number] at taken
    have frame := s.went_frame rec (.lane l)
    have run : (s.went rec (.lane l)).run? c = some (newRun rec (.lane l)) := by
      have at_tail : (s.went rec (.lane l)).runner.runs = (s.gone rec (.lane l)).runner.runs := by
        cases begins : s.goStarts rec with
        | false => rw [State.went_plain l begins]
        | true => rw [State.went_starts_runner l begins]; rfl
      rw [State.run?_of_runs at_tail, State.run?_gone s rec _ (by rw [number]; exact absent), if_pos number.symm]
    refine ⟨_, s.went rec (.lane l), if rec.preWait = 0 then (s.went rec (.lane l)).dispatch c else s.went rec (.lane l), taken,
      ?_, ?_, ?_, frame, ?_, .of_answer (requestFrame_go l tag e) (Noticed.refl _) _ _, State.answer_frame ..⟩
    · cases begins : s.goStarts rec with
      | false => rw [State.went_plain l begins]; exact s.gone_noticed rec _
      | true => exact State.went_starts_noticed l begins
    · cases begins : s.goStarts rec with
      | false => rw [State.went_plain l begins, State.gone_runner, number]; rfl
      | true => rw [State.went_starts_runner l begins, number]; rfl
    · cases begins : s.goStarts rec with
      | false => rw [State.went_plain l begins, State.gone_record, number]; rfl
      | true => rw [State.went_starts_record l begins, number]; rfl
    · split
      · rw [exec_preWaitEnd, State.dispatchDue, run]
        rfl
      · rfl
  · obtain ⟨runner, slots, record, told, frame⟩ := State.retire_active_leaves found active .sameCue l
    have few : (s.retire c .sameCue (.lane l)).runner.runs.length < 16 := by
      rw [runner]
      exact Nat.lt_of_lt_of_le (State.length_dropRun_lt found) many
    obtain ⟨t, done, runner', record', answered, frame'⟩ := with_room plain waits _ (State.makeRoom_of_retired rfl few) told
      (by rw [frame]) (by rw [record, Record.hand_clock])
    refine ⟨t, done, ?_, fun k => ?_, ?_, answered, ?_⟩
    · rw [runner', runner]
    · rw [frame']
      exact slots k
    · rw [record', record]
    · rw [frame', frame]
  · have found : s.run? r.cue = some r := by
      rw [State.run?, runs]
      exact List.find?_cons_of_pos (beq_self_eq_true _)
    obtain ⟨runner, slots, record, told, frame⟩ := State.retire_active_leaves found active .listFull l
    obtain ⟨t, done, runner', record', answered, frame'⟩ := with_room plain waits _ (State.makeRoom_of_full absent runs full _) told
      (by rw [frame]) (by rw [record, Record.hand_clock])
    refine ⟨t, done, ?_, fun k => ?_, ?_, answered, ?_⟩
    · rw [runner', runner]
    · rw [frame']
      exact slots k
    · rw [record', record]
    · rw [frame', frame]
  · have go := fun h => exec_go_cut l tag standby held expected may found cut many plain waits (h := h)
    rcases acts with once | ⟨p, v, time, cv, list, inside, free, slow, _, _, empty, pool⟩
    · have acted := handActions_cut_atOnce (c := c) once
      obtain ⟨t, done, runner, record, answered, frame⟩ := go _ rfl (acted.lanes) acted.runner
        (by rw [acted.frame]; rfl) acted.store
      have lines : t.runner.lines = (handActions none c 0 rec.actions (s.orphan c)).runner.lines := by rw [runner]
      refine ⟨t, done, ?_, fun k => ?_, fun k => ?_, fun k => ?_, fun _ => ⟨fun p => ?_, fun k => ?_⟩, fun p v time cv list slow => ?_,
        record, answered, ?_⟩
      · rw [runner]
      · rw [State.line, lines]
        exact acted.line k
      · rw [frame]
        exact acted.zone k
      · rw [frame]
        exact acted.mask k
      · rw [frame]
        exact acted.point p
      · rw [frame]
        exact (acted.slot k).trans (s.slot_orphan c k)
      · obtain ⟨_, at_once, _⟩ := once (.level (.point p) v time cv false) (by rw [list]; exact List.mem_cons_self)
        omega
      · rw [frame]
        have before := acted.frame
        generalize handActions none c 0 rec.actions (s.orphan c) = h at before
        rw [before]
        rfl
    · have started := handActions_cut_move (c := c) (v := v) (cv := cv) inside free slow empty pool
      rw [← list] at started
      obtain ⟨slot, slots, points, same⟩ := (s.orphan c).startMove_ownerless v time cv (k := 0) (by decide) inside
      obtain ⟨t, done, runner, record, answered, frame⟩ := go _ started (State.startMove_lanes ..) (by rw [same]; rfl)
        (State.startMove_record ..) (State.startMove_store ..)
      have lines : t.runner.lines = s.runner.lines := by
        rw [runner]
        exact (congrArg Runner.lines same :)
      refine ⟨t, done, ?_, fun k => ?_, fun k => ?_, fun k => ?_, fun once => ?_, fun p' v' time' cv' list' _ => ⟨?_, fun q => ?_, fun k ne => ?_⟩,
        record, answered, ?_⟩
      · rw [runner]
      · rw [State.line, lines, list]
        rfl
      · rw [frame, list]
        exact congrArg (fun x : Table Zone Config.zones => x.getD k {}) (State.startMove_zones ..)
      · rw [frame, list]
        exact congrArg (fun x : Table Bool Config.mixes => x.getD k false) (State.startMove_masks ..)
      · obtain ⟨_, at_once, _⟩ := once (.level (.point p) v time cv false) (by rw [list]; exact List.mem_cons_self)
        omega
      · rw [list] at list'
        cases list'
        rw [frame]
        exact slot
      · rw [list] at list'
        cases list'
        rw [frame]
        exact points q
      · rw [frame]
        exact (slots k ne).trans (s.slot_orphan c k)
      · rw [frame]
        apply State.ext_fields <;> simp

end Sys2Proof.Machine
end

section
/-! STAGE BEGIN (9.2): the image it starts, and the first fault of a header. -/

namespace Sys2Proof.Machine

/-! ## The first fault of a header (R161) -/

theorem headerFault_of_checks {g n : Nat} {h : StageHeader} {target count label fields : Prop}
    (targets : targetGood g h = true ↔ target) (counts : countGood n h = true ↔ count)
    (bad_label : ¬ label → fieldFault h = some .label) (bad_field : label → ¬ fields → fieldFault h = some .range)
    (good : label → fields → fieldFault h = none) :
    (¬ target → headerFault g h n = some .range) ∧ (target → ¬ count → headerFault g h n = some .count) ∧
      (target → count → ¬ label → headerFault g h n = some .label) ∧
      (target → count → label → ¬ fields → headerFault g h n = some .range) ∧
      (target → count → label → fields → headerFault g h n = none) := by
  have past : target → count → headerFault g h n = fieldFault h := fun t c => by
    rw [headerFault, targets.mpr t, counts.mpr c]
    rfl
  refine ⟨fun t => ?_, fun t c => ?_, fun t c l => (past t c).trans (bad_label l), fun t c l f => (past t c).trans (bad_field l f),
    fun t c l f => (past t c).trans (good l f)⟩
  · rw [headerFault, Bool.eq_false_iff.mpr (mt targets.mp t)]
    rfl
  · rw [headerFault, targets.mpr t, Bool.eq_false_iff.mpr (mt counts.mp c)]
    rfl

theorem labelGood_iff (k : Nat) (label : List Byte) :
    labelGood k label = true ↔ label.length ≤ k ∧ ∀ c ∈ label, 32 ≤ c.toNat ∧ c.toNat ≤ 126 := by
  simp [labelGood, isLabelChar]

theorem flagOf_isSome (n : Nat) : (flagOf n).isSome = true ↔ n ≤ 1 := by
  rcases n with _ | _ | n
  · simp [flagOf]
  · simp [flagOf]
  · simp [flagOf]

theorem readFollow_isSome (fk fv : Nat) : (readFollow fk fv).isSome = true ↔
    fk = 1 ∧ fv = 0 ∨ fk = 2 ∧ fv ≤ 600000 ∨ fk = 3 ∧ fv ≤ 600000 ∨ fk = 4 ∧ 1 ≤ fv ∧ fv ≤ 255 := by
  unfold readFollow
  split
  case h_5 none1 none2 none3 none4 =>
    have not1 : fk ≠ 1 := fun e => none1 e
    have not2 : fk ≠ 2 := fun e => none2 e
    have not3 : fk ≠ 3 := fun e => none3 e
    have not4 : fk ≠ 4 := fun e => none4 e
    simp [not1, not2, not3, not4]
  all_goals
    split
    · next inside => simpa using inside
    · next out => simpa using out

theorem polarityOfCode_isSome (p : Nat) : (polarityOfCode p).isSome = true ↔ p = 1 ∨ p = 2 := by
  unfold polarityOfCode
  split
  · simp
  · simp
  · next not1 not2 =>
    have first : p ≠ 1 := fun e => not1 e
    have second : p ≠ 2 := fun e => not2 e
    simp [first, second]

theorem logModeOfCode_isSome (m : Nat) : (logModeOfCode m).isSome = true ↔ m = 1 ∨ m = 2 := by
  unfold logModeOfCode
  split
  · simp
  · simp
  · next not1 not2 =>
    have first : m ≠ 1 := fun e => not1 e
    have second : m ≠ 2 := fun e => not2 e
    simp [first, second]

theorem fieldFault_group (label : List Byte) (bad : ¬ (label.length ≤ 16 ∧ ∀ c ∈ label, 32 ≤ c.toNat ∧ c.toNat ≤ 126)) :
    fieldFault (.group label) = some .label := if_neg (mt (labelGood_iff 16 label).mp bad)

/-! ## The image of a STAGE BEGIN (R162) -/

section
variable {l : Lane} (full : l ≠ .p) (tag : Byte) (g : Nat) (h : StageHeader) (n : Nat) (s : State)
include full

theorem exec_stageBegin_malformed (misfit : headerFits h = false) : exec (.stageBegin l tag g h n) s =
    .next (s.answer (.stageBegin l tag g h n) .malformed []) := by
  rw [exec, execStageBegin, fullOnly_full l _ _ _ full, misfit]
  rfl

theorem exec_stageBegin_served (fits : headerFits h = true) : exec (.stageBegin l tag g h n) s =
    .next ((s.setBuffer l (some (s.store.newImage g h n))).answer (.stageBegin l tag g h n) .ok
      (be 1 (statusCode (some (s.store.newImage g h n))) ++ reasonByte (s.store.newImage g h n).status
        ++ be 2 (s.store.newImage g h n).expected)) := by
  rw [exec, execStageBegin, fullOnly_full l _ _ _ full, if_pos fits]

end

section
variable (s : State) {l : Lane} (full : l ≠ .p) (v : Option Image) (i : Instr) (st : Status) (body : List Byte)

theorem State.buffer_answer (k : Lane) : (s.answer i st body).buffer k = s.buffer k := by
  rw [State.answer_frame]
  rfl

theorem State.buffer_setBuffer_other {k : Lane} (other : k ≠ l) : (s.setBuffer l v).buffer k = s.buffer k := by
  rw [State.buffer_setBuffer, if_neg fun h => other h.1]

include full in
theorem State.buffer_setBuffer_self : (s.setBuffer l v).buffer l = v := by rw [State.buffer_setBuffer, if_pos ⟨rfl, full⟩]

end

theorem Store.newImage_eq (st : Store) (g : Nat) (h : StageHeader) (n : Nat) : st.newImage g h n =
    { status := (match headerFault g h n with
        | some r => .invalid r none
        | none => if n = 0 then .complete else .opened),
      header := h, target := g, declared := n, actions := [], members := [], expected := st.editCountOf g h, committed := false } := by
  unfold Store.newImage beginStatus
  cases headerFault g h n <;> rfl

theorem Store.editCountOf_zoneSetup (st : Store) (g : Nat) (dd : Int) (we : Nat) (th hy : Int) (ho : Nat) :
    st.editCountOf g (.zoneSetup dd we th hy ho) = if g < 32 then (st.zoneSetups.getD g {}).editCount else 0 := by
  have length : st.zoneSetups.toList.length = 32 := st.zoneSetups.2
  unfold Store.editCountOf Table.getD
  by_cases below : g < 32
  · rw [if_pos below, List.getElem?_eq_getElem (by omega)]
    rfl
  · rw [if_neg below, List.getElem?_eq_none (by omega)]
    rfl

/-- Settles O27: the new image, and a header's checks in their order for each kind. -/
theorem stageBeginStartsAnImage : Obligations.StageBeginStartsAnImage := by
  refine ⟨fun l tag g h n s full => ⟨fun misfit => ?_, fun fits => ?_⟩, fun _ _ => rfl, fun st g => ?_, fun g n => ?_⟩
  · exact .of_answer rfl (exec_stageBegin_malformed full tag g h n s misfit)
  · refine ⟨_, _, exec_stageBegin_served full tag g h n s fits, ?_, Store.newImage_eq .., fun k other => ?_,
      .of_answer rfl ((Noticed.refl s).of_lanes (State.setBuffer_lanes ..)) _ _, ?_⟩
    · rw [State.buffer_answer, State.buffer_setBuffer_self s full]
    · rw [State.buffer_answer, State.buffer_setBuffer_other s _ other]
    · rw [State.answer_frame, State.setBuffer_frame]
  · exact ⟨rfl, rfl, fun _ => rfl, fun _ _ _ _ _ _ => rfl, st.editCountOf_zoneSetup g, fun _ => rfl, fun _ _ _ _ => rfl⟩
  · have cues : (1 ≤ g && g ≤ Config.maxCue) = true ↔ 1 ≤ g ∧ g ≤ 9999999 := by simp [Config.maxCue]
    have no_label : ∀ h : StageHeader, ¬ True → fieldFault h = some .label := fun _ never => absurd trivial never
    refine ⟨fun label pw fk fv pc cu => ?_,
      fun label => headerFault_of_checks decide_eq_true_iff (by simp [countGood]) (fieldFault_group label) (fun _ h => absurd trivial h)
        fun good _ => if_pos ((labelGood_iff 16 label).mpr good),
      fun dd we th hy ho => ?_, fun ps => ?_, fun mode lim att rel => ?_,
      headerFault_of_checks cues decide_eq_true_iff (no_label _) (fun _ h => absurd trivial h) fun _ _ => rfl,
      headerFault_of_checks decide_eq_true_iff decide_eq_true_iff (no_label _) (fun _ h => absurd trivial h) fun _ _ => rfl⟩
    · have fields : (decide (pw ≤ 600000) && (readFollow fk fv).isSome && (flagOf pc).isSome && (flagOf cu).isSome) = true ↔ pw ≤ 600000 ∧
          (fk = 1 ∧ fv = 0 ∨ fk = 2 ∧ fv ≤ 600000 ∨ fk = 3 ∧ fv ≤ 600000 ∨ fk = 4 ∧ 1 ≤ fv ∧ fv ≤ 255) ∧ pc ≤ 1 ∧ cu ≤ 1 := by
        simp only [Bool.and_eq_true, decide_eq_true_eq, readFollow_isSome, flagOf_isSome, and_assoc]
      refine headerFault_of_checks cues decide_eq_true_iff (fun bad => ?_) (fun good bad => ?_) fun good f => ?_
      · rw [fieldFault, Bool.eq_false_iff.mpr (mt (labelGood_iff 24 label).mp bad)]
        rfl
      · rw [fieldFault, (labelGood_iff 24 label).mpr good]
        exact if_neg (mt fields.mp bad)
      · rw [fieldFault, (labelGood_iff 24 label).mpr good]
        exact if_pos (fields.mpr f)
    · refine headerFault_of_checks decide_eq_true_iff decide_eq_true_iff (no_label _) (fun _ bad => if_neg (mt ?_ bad)) fun _ f => if_pos ?_
      · simp only [Bool.and_eq_true, decide_eq_true_eq, flagOf_isSome, and_assoc, imp_self]
      · simpa only [Bool.and_eq_true, decide_eq_true_eq, flagOf_isSome, and_assoc] using f
    · have fields : (ps.all fun p => (polarityOfCode p).isSome) = true ↔ ∀ p ∈ ps, p = 1 ∨ p = 2 := by
        simp only [List.all_eq_true, polarityOfCode_isSome]
      exact headerFault_of_checks decide_eq_true_iff decide_eq_true_iff (no_label _) (fun _ bad => if_neg (mt fields.mp bad))
        fun _ f => if_pos (fields.mpr f)
    · refine headerFault_of_checks decide_eq_true_iff decide_eq_true_iff (no_label _) (fun _ bad => if_neg (mt ?_ bad)) fun _ f => if_pos ?_
      · simp only [Bool.and_eq_true, decide_eq_true_eq, logModeOfCode_isSome, and_assoc, imp_self]
      · simpa only [Bool.and_eq_true, decide_eq_true_eq, logModeOfCode_isSome, and_assoc] using f

end Sys2Proof.Machine
end

section
/-! STAGE COMMIT: its checks in their order (9.3). -/

namespace Sys2Proof.Machine

/-! ## The first check that fails (R165) -/

theorem PerfState.inShow_iff (x : PerfState) : x.inShow = true ↔ x = .running ∨ x = .interval := by
  cases x <;> simp [PerfState.inShow]

section
variable {l : Lane} (full : l ≠ .p) (tag : Byte) {k g n e : Nat} {s : State}
include full

theorem exec_stageCommit_refused {st : Status} {body : List Byte}
    (refused : s.commitRefusal (s.buffer l) k g n e = some (st, body)) :
    exec (.stageCommit l tag k g n e) s = .next (s.answer (.stageCommit l tag k g n e) st body) := by
  rw [exec, execStageCommit, fullOnly_full l _ _ _ full, refused]

theorem exec_stageCommit_taken {m : Image} (held : s.buffer l = some m) (taken : s.commitRefusal (some m) k g n e = none) :
    exec (.stageCommit l tag k g n e) s =
      .next ((s.takeCommit l m).answer (.stageCommit l tag k g n e) .ok ((s.takeCommit l m).commitReply m)) := by
  rw [exec, execStageCommit, fullOnly_full l _ _ _ full, held, taken]

theorem Refused.of_commitRefusal {st : Status} {body : List Byte}
    (refused : s.commitRefusal (s.buffer l) k g n e = some (st, body)) : Refused s (.stageCommit l tag k g n e) st body :=
  .of_answer rfl (exec_stageCommit_refused full tag refused)

end

section
variable {s : State} {m : Image} {k g n e : Nat}

theorem State.commitRefusal_of_incomplete (incomplete : m.status ≠ .complete) :
    s.commitRefusal (some m) k g n e = some (.notComplete, be 1 (statusCode (some m))) := by
  have check : (m.status != .complete) = true := bne_iff_ne.mpr incomplete
  rw [State.commitRefusal, if_pos check]

theorem Image.matchesEcho_iff :
    m.matchesEcho k g n e = true ↔ k = m.header.kindCode ∧ g = m.target ∧ n = m.declared ∧ e = m.expected := by
  simp only [Image.matchesEcho, Bool.and_eq_true, beq_iff_eq, and_assoc, @eq_comm _ k, @eq_comm _ g, @eq_comm _ n, @eq_comm _ e]

variable (complete : m.status = .complete)
include complete

theorem State.commitRefusal_of_mismatch (other : ¬ (k = m.header.kindCode ∧ g = m.target ∧ n = m.declared ∧ e = m.expected)) :
    s.commitRefusal (some m) k g n e = some (.mismatch, []) := by
  have echo : m.matchesEcho k g n e = false := Bool.eq_false_iff.mpr (mt Image.matchesEcho_iff.mp other)
  simp [State.commitRefusal, complete, echo]

variable (kind : k = m.header.kindCode) (target : g = m.target) (declared : n = m.declared) (expected : e = m.expected)
include kind target declared expected

theorem State.commitRefusal_of_locked (locked : s.record.state = .running ∨ s.record.state = .interval) :
    s.commitRefusal (some m) k g n e = some (.locked, be 1 s.record.state.code) := by
  have echo := Image.matchesEcho_iff.mpr ⟨kind, target, declared, expected⟩
  simp [State.commitRefusal, complete, echo, (PerfState.inShow_iff _).mpr locked]

variable (idle : s.record.state.inShow = false)
include idle

theorem State.commitRefusal_of_busy (busy : s.imageBusy m = true) :
    s.commitRefusal (some m) k g n e = some (.busy, be 3 m.target) := by
  have echo := Image.matchesEcho_iff.mpr ⟨kind, target, declared, expected⟩
  simp [State.commitRefusal, complete, echo, idle, busy]

variable (free : s.imageBusy m = false)
include free

theorem State.commitRefusal_of_changed (changed : s.store.editCountOf m.target m.header ≠ m.expected) :
    s.commitRefusal (some m) k g n e = some (.changed, be 2 (s.store.editCountOf m.target m.header)) := by
  have echo := Image.matchesEcho_iff.mpr ⟨kind, target, declared, expected⟩
  simp [State.commitRefusal, complete, echo, idle, free, changed]

variable (same : s.store.editCountOf m.target m.header = m.expected)
include same

theorem State.commitRefusal_of_missing {x : Nat × Option Nat} (missing : s.store.missing m = some x) :
    s.commitRefusal (some m) k g n e = some (.notFound, be 3 x.1 ++ optBytes 1 x.2) := by
  have echo := Image.matchesEcho_iff.mpr ⟨kind, target, declared, expected⟩
  simp [State.commitRefusal, complete, echo, idle, free, same, missing]

variable (present : s.store.missing m = none)
include present

theorem State.commitRefusal_of_exceeded {x : Nat} (exceeded : s.store.exceeded m = some x) :
    s.commitRefusal (some m) k g n e = some (.full, be 1 x) := by
  have echo := Image.matchesEcho_iff.mpr ⟨kind, target, declared, expected⟩
  simp [State.commitRefusal, complete, echo, idle, free, same, present, exceeded]

variable (fits : s.store.exceeded m = none)
include fits

theorem State.commitRefusal_of_used (group : m.header.kindCode = 7) (used : 0 < s.store.references m.target) :
    s.commitRefusal (some m) k g n e = some (.inUse, be 2 (s.store.references m.target)) := by
  have echo := Image.matchesEcho_iff.mpr ⟨kind, target, declared, expected⟩
  simp [State.commitRefusal, complete, echo, idle, free, same, present, fits, group, used]

theorem State.commitRefusal_of_taken (unused : m.header.kindCode = 7 → s.store.references m.target = 0) :
    s.commitRefusal (some m) k g n e = none := by
  have echo := Image.matchesEcho_iff.mpr ⟨kind, target, declared, expected⟩
  by_cases group : m.header.kindCode = 7 <;>
    simp [State.commitRefusal, complete, echo, idle, free, same, present, fits, group, unused]

end

/-! ## What the store misses, and what is full (R167) -/

theorem Store.missingGroup_eq_some {st : Store} {acts : List Action} {x : Nat} {a : Action} {y : Nat} (at_ : acts[x]? = some a)
    (names : a.groupNamed = some y) (absent : st.group? y = none)
    (before : ∀ b ∈ acts.take x, ∀ z, b.groupNamed = some z → (st.group? z).isSome) (k : Nat) :
    st.missingGroup k acts = some (k + x, y) := by
  induction acts generalizing x k with
  | nil => simp at at_
  | cons b bs ih =>
    rw [Store.missingGroup]
    cases x with
    | zero =>
      cases at_
      rw [names]
      dsimp only
      rw [if_pos (Option.isNone_iff_eq_none.mpr absent)]
      rfl
    | succ x =>
      have rest := ih (x := x) at_ (fun c mem => before c (List.mem_cons_of_mem b mem)) (k + 1)
      rw [Nat.add_right_comm] at rest
      cases named : b.groupNamed with
      | none => exact rest
      | some z =>
        have held := before b List.mem_cons_self z named
        dsimp only
        rw [if_neg (by simpa using Option.isSome_iff_ne_none.mp held)]
        exact rest

theorem Store.missingGroup_eq_none {st : Store} {acts : List Action}
    (held : ∀ b ∈ acts, ∀ z, b.groupNamed = some z → (st.group? z).isSome) (k : Nat) : st.missingGroup k acts = none := by
  induction acts generalizing k with
  | nil => rfl
  | cons b bs ih =>
    have rest := ih (fun c mem => held c (List.mem_cons_of_mem b mem)) (k + 1)
    rw [Store.missingGroup]
    cases named : b.groupNamed with
    | none => exact rest
    | some z =>
      dsimp only
      rw [if_neg (by simpa using Option.isSome_iff_ne_none.mp (held b List.mem_cons_self z named))]
      exact rest

section
variable {st : Store} {m : Image}

theorem Store.missing_cue {label : List Byte} {pw fk fv pc cu : Nat} (kind : m.header = .cue label pw fk fv pc cu) :
    st.missing m = (st.missingGroup 0 m.actions).map fun x => (x.2, some x.1) := by rw [Store.missing, kind]

theorem Store.missing_removeCue (kind : m.header = .removeCue) :
    st.missing m = if (st.cue? m.target).isNone then some (m.target, none) else none := by rw [Store.missing, kind]

theorem Store.missing_removeGroup (kind : m.header = .removeGroup) :
    st.missing m = if (st.group? m.target).isNone then some (m.target, none) else none := by rw [Store.missing, kind]

theorem Store.exceeded_cue {label : List Byte} {pw fk fv pc cu : Nat} (kind : m.header = .cue label pw fk fv pc cu) :
    st.exceeded m = if (st.cue? m.target).isNone && Config.cueLimit ≤ st.cues.length then some 1
      else if st.freeActions + ((st.cue? m.target).map fun c => c.actions.length).getD 0 < m.declared then some 2 else none := by
  rw [Store.exceeded, kind]

theorem Store.exceeded_group {label : List Byte} (kind : m.header = .group label) :
    st.exceeded m =
      if st.freeMembers + ((st.group? m.target).map fun g => g.members.length).getD 0 < m.declared then some 3 else none := by
  rw [Store.exceeded, kind]

end

theorem State.imageBusy_iff {s : State} {m : Image} : s.imageBusy m = true ↔
    (m.header.kindCode = 1 ∨ m.header.kindCode = 6) ∧ (s.run? m.target).isSome := by
  simp only [State.imageBusy, Bool.and_eq_true, Bool.or_eq_true, beq_iff_eq]

/-- Settles O29, one refusal for each check. -/
theorem stageCommitChecksInOrder : Obligations.StageCommitChecksInOrder := by
  intro l tag k g n e s full
  refine ⟨fun empty => ?_, fun m held => ⟨fun incomplete => ?_, fun complete other => ?_,
    fun complete kind target declared expected => ⟨fun locked => ?_, fun not_running not_interval => ?_⟩⟩⟩
  · refine .of_commitRefusal full tag ?_
    rw [empty]
    rfl
  · refine .of_commitRefusal full tag ?_
    rw [held]
    exact State.commitRefusal_of_incomplete incomplete
  · refine .of_commitRefusal full tag ?_
    rw [held]
    exact State.commitRefusal_of_mismatch complete other
  · refine .of_commitRefusal full tag ?_
    rw [held]
    exact State.commitRefusal_of_locked complete kind target declared expected locked
  have idle : s.record.state.inShow = false :=
    Bool.eq_false_iff.mpr fun h => ((PerfState.inShow_iff _).mp h).elim not_running not_interval
  have refused : ∀ {st body}, s.commitRefusal (some m) k g n e = some (st, body) → Refused s (.stageCommit l tag k g n e) st body :=
    fun h => .of_commitRefusal full tag (by rw [held]; exact h)
  refine ⟨fun cue run => ?_, fun no_run => ?_⟩
  · have busy : s.imageBusy m = true := State.imageBusy_iff.mpr ⟨by rw [← kind]; exact cue, by rw [← target]; exact run⟩
    have bad := refused (State.commitRefusal_of_busy complete kind target declared expected idle busy)
    rw [← target] at bad
    exact bad
  have free : s.imageBusy m = false := Bool.eq_false_iff.mpr fun busy => by
    obtain ⟨cue, run⟩ := State.imageBusy_iff.mp busy
    rw [← target, no_run (by rw [kind]; exact cue)] at run
    cases run
  refine ⟨fun changed => ?_, fun same => ?_⟩
  · rw [target, expected] at changed
    have bad := refused (State.commitRefusal_of_changed complete kind target declared expected idle free changed)
    rw [← target] at bad
    exact bad
  rw [target, expected] at same
  have missing := fun x (h : s.store.missing m = some x) =>
    refused (State.commitRefusal_of_missing complete kind target declared expected idle free same h)
  have exceeded := fun present x (h : s.store.exceeded m = some x) =>
    refused (State.commitRefusal_of_exceeded complete kind target declared expected idle free same present h)
  have unindexed : optBytes 1 none = [0, 0] := by decide
  refine ⟨fun remove absent => ?_, fun remove absent => ?_, fun label pw fk fv pc cu header => ⟨fun x a y at_ names absent before => ?_,
    fun groups => ?_⟩, fun label header more => ?_, fun remove present used => ?_⟩
  · rw [target] at absent
    have bad := missing (m.target, none) (by rw [Store.missing_removeCue remove, absent]; rfl)
    rw [unindexed, ← target] at bad
    exact bad
  · rw [target] at absent
    have bad := missing (m.target, none) (by rw [Store.missing_removeGroup remove, absent]; rfl)
    rw [unindexed, ← target] at bad
    exact bad
  · refine missing (y, some x) ?_
    rw [Store.missing_cue header, Store.missingGroup_eq_some at_ names absent before, Nat.zero_add]
    rfl
  · have present : s.store.missing m = none := by
      rw [Store.missing_cue header, Store.missingGroup_eq_none groups]
      rfl
    refine ⟨fun new many => exceeded present 1 ?_, fun room more => exceeded present 2 ?_⟩
    · rw [target] at new
      rw [Store.exceeded_cue header, new]
      simp [Config.cueLimit, many]
    · rw [target, declared] at more
      rw [target] at room
      have some_room : ¬ ((s.store.cue? m.target).isNone && decide (Config.cueLimit ≤ s.store.cues.length)) = true := by
        rcases room with held_ | few
        · simp [Option.isSome_iff_ne_none.mp held_]
        · simp [Config.cueLimit, few]
      rw [Store.exceeded_cue header, if_neg some_room, if_pos more]
  · have present : s.store.missing m = none := by rw [Store.missing, header]
    rw [target, declared] at more
    exact exceeded present 3 (by rw [Store.exceeded_group header, if_pos more])
  · rw [target] at present used
    have there : s.store.missing m = none := by
      rw [Store.missing_removeGroup remove, if_neg (by simpa using Option.isSome_iff_ne_none.mp present)]
    have fits : s.store.exceeded m = none := by rw [Store.exceeded, remove]
    have bad := refused (State.commitRefusal_of_used complete kind target declared expected idle free same there fits
      (by rw [remove]; rfl) used)
    rw [← target] at bad
    exact bad

end Sys2Proof.Machine
end

section
/-! STAGE COMMIT taken: cues (9.4). -/

namespace Sys2Proof.Machine

/-! ## A commit taken (R168) -/

theorem State.buffer_of_staging {s t : State} (same : t.staging = s.staging) (j : Lane) : t.buffer j = s.buffer j := by
  cases j <;> simp only [State.buffer, same]

section
variable {l : Lane} (full : l ≠ .p) (tag : Byte) {k g n e : Nat} {s : State} {m : Image} (held : s.buffer l = some m)
  (taken : s.commitRefusal (some m) k g n e = none) {ks : List Notice} (noticed : Noticed s (s.commitImage m) ks)
include full held taken noticed

theorem exec_stageCommit_effects : ∃ t, exec (.stageCommit l tag k g n e) s = .next t ∧ t.store = (s.commitImage m).store ∧
    t.runner = (s.commitImage m).runner ∧ t.buffer l = some { m with committed := true } ∧ (∀ j, j ≠ l → t.buffer j = s.buffer j) ∧
    AnsweredNoticing s t (.stageCommit l tag k g n e) .ok (t.commitReply m) (fun j => ks ++ if j = l then [] else [.store]) ∧
    t = { s.commitImage m with lanes := t.lanes, staging := t.staging } := by
  have store : (s.takeCommit l m).store = (s.commitImage m).store := by simp [State.takeCommit]
  have runner : (s.takeCommit l m).runner = (s.commitImage m).runner := by simp [State.takeCommit]
  have buffer : ∀ j, ((s.takeCommit l m).answer (.stageCommit l tag k g n e) .ok ((s.takeCommit l m).commitReply m)).buffer j =
      ((s.commitImage m).setBuffer l (some { m with committed := true })).buffer j := fun j =>
    (State.buffer_answer ..).trans (State.buffer_of_staging (State.noticeOthers_staging ..) j)
  refine ⟨_, exec_stageCommit_taken full tag held taken, ?_, ?_, ?_, fun j other => ?_, ?_, ?_⟩
  · rw [State.answer_store, store]
  · rw [State.answer_runner, runner]
  · rw [buffer, State.buffer_setBuffer_self _ full]
  · rw [buffer, State.buffer_setBuffer_other _ _ other]
    exact State.buffer_of_staging (State.commitImage_staging ..) j
  · have reply : ((s.takeCommit l m).answer (.stageCommit l tag k g n e) .ok ((s.takeCommit l m).commitReply m)).commitReply m =
        (s.takeCommit l m).commitReply m := by
      simp only [State.commitReply, State.answer_store, State.answer_runner]
    rw [reply]
    refine ⟨l, _, rfl, fun j => ?_⟩
    rw [State.lane_answer _ (.stageCommit l tag k g n e) l j _ _ _ rfl]
    have told : (s.takeCommit l m).lanes.get j = (s.lanes.get j).notifyAll (ks ++ if j = l then [] else [.store]) := by
      rw [State.takeCommit, State.lane_noticeOthers, State.setBuffer_lanes, noticed j, LaneState.notifyAll_append]
      split <;> rfl
    rw [told]
  · apply State.ext_fields <;> simp [State.takeCommit]

end

/-! ## Cues looked up after a commit (R169) -/

theorem find?_insertCue_self (c : Cue) (cs : List Cue) : (insertCue c cs).find? (fun d => d.number == c.number) = some c := by
  induction cs with
  | nil => exact List.find?_cons_of_pos (beq_self_eq_true _)
  | cons x xs ih =>
    unfold insertCue
    split
    · exact List.find?_cons_of_pos (beq_self_eq_true _)
    · split
      · exact List.find?_cons_of_pos (beq_self_eq_true _)
      · next other =>
        refine Eq.trans (List.find?_cons_of_neg ?_) ih
        exact fun same => other (beq_iff_eq.mp same).symm

theorem find?_insertCue_other {c : Cue} {n : Nat} (other : n ≠ c.number) (cs : List Cue) :
    (insertCue c cs).find? (fun d => d.number == n) = cs.find? fun d => d.number == n := by
  have skip : ∀ ds : List Cue, (c :: ds).find? (fun d => d.number == n) = ds.find? fun d => d.number == n := fun ds =>
    List.find?_cons_of_neg fun same => other (beq_iff_eq.mp same).symm
  induction cs with
  | nil => exact skip []
  | cons x xs ih =>
    unfold insertCue
    split
    · exact skip (x :: xs)
    · split
      · next same =>
        refine (skip xs).trans (List.find?_cons_of_neg fun at_ => other ?_).symm
        rw [same]
        exact (beq_iff_eq.mp at_).symm
      · rw [List.find?_cons, List.find?_cons, ih]

theorem Store.cue?_putCue (st : Store) (c : Cue) (n : Nat) : (st.putCue c).cue? n =
    if n = c.number then some { c with editCount := nextEdit (st.cueEdit c.number) } else st.cue? n := by
  by_cases own : n = c.number
  · rw [if_pos own, own]
    exact find?_insertCue_self { c with editCount := nextEdit (st.cueEdit c.number) } st.cues
  · rw [if_neg own]
    exact find?_insertCue_other (c := { c with editCount := nextEdit (st.cueEdit c.number) }) own st.cues

theorem Store.cue?_removeCue (st : Store) (c n : Nat) : (st.removeCue c).cue? n = if n = c then none else st.cue? n := by
  change (st.cues.filter fun d => d.number != c).find? (fun d => d.number == n) = _
  rw [List.find?_filter]
  by_cases own : n = c
  · rw [if_pos own, List.find?_eq_none]
    intro d _
    simp [own]
  · rw [if_neg own]
    refine congrArg (fun p => st.cues.find? p) (funext fun d => ?_)
    by_cases at_ : d.number = n
    · simp [at_, own]
    · simp [at_]

theorem flagOf_getD (n : Nat) : (flagOf n).getD false = decide (n = 1) := by
  rcases n with _ | _ | n
  · rfl
  · rfl
  · exact (decide_eq_false (by omega)).symm

section
variable (s : State) (c : Cue)

theorem State.commitCue_store : (s.commitCue c).store = s.store.putCue c := by
  unfold State.commitCue
  dsimp only
  split
  · rw [State.setStandby_frame]
  · rfl

theorem State.commitCue_runner : (s.commitCue c).runner =
    { s.runner with standby := if s.store.cues = [] then some c.number else s.runner.standby } := by
  unfold State.commitCue
  dsimp only
  by_cases empty : s.store.cues = []
  · rw [if_pos (List.isEmpty_iff.mpr empty), if_pos empty, State.setStandby_frame]
  · rw [if_neg (mt List.isEmpty_iff.mp empty), if_neg empty]

theorem State.commitCue_noticed :
    Noticed s (s.commitCue c) (if s.store.cues = [] ∧ s.runner.standby ≠ some c.number then [.standby] else []) := by
  have stored : Noticed s { s with store := s.store.putCue c } [] := (Noticed.refl s).of_lanes rfl
  unfold State.commitCue
  dsimp only
  by_cases empty : s.store.cues = []
  · rw [if_pos (List.isEmpty_iff.mpr empty)]
    have told := stored.trans (Noticed.setStandby (some c.number) { s with store := s.store.putCue c })
    by_cases same : s.runner.standby = some c.number
    · rw [if_pos same] at told
      rw [if_neg fun h => h.2 same]
      exact told
    · rw [if_neg same] at told
      rw [if_pos ⟨empty, same⟩]
      exact told
  · rw [if_neg (mt List.isEmpty_iff.mp empty), if_neg fun h => empty h.1]
    exact stored

theorem State.commitCue_frame : s.commitCue c = { s with
    lanes := (s.commitCue c).lanes, store := (s.commitCue c).store, runner := (s.commitCue c).runner } := by
  apply State.ext_fields <;> simp

variable (n : Nat)

theorem State.commitRemoveCue_store : (s.commitRemoveCue n).store = s.store.removeCue n := by
  unfold State.commitRemoveCue
  dsimp only
  split
  · rw [State.setStandby_frame]
  · rfl

theorem State.commitRemoveCue_runner : (s.commitRemoveCue n).runner = { s.runner with
    standby := if s.runner.standby = some n then (s.store.removeCue n).nextAfter n else s.runner.standby } := by
  unfold State.commitRemoveCue
  dsimp only
  split
  · rw [State.setStandby_frame]
  · rfl

/-- Standby that was the cue removed changes, since the next cue after it is another (R74). -/
theorem State.commitRemoveCue_noticed :
    Noticed s (s.commitRemoveCue n) (if s.runner.standby = some n then [.standby] else []) := by
  have stored : Noticed s { s with store := s.store.removeCue n } [] := (Noticed.refl s).of_lanes rfl
  unfold State.commitRemoveCue
  dsimp only
  by_cases at_ : s.runner.standby = some n
  · have told := stored.trans (Noticed.setStandby ((s.store.removeCue n).nextAfter n) { s with store := s.store.removeCue n })
    have moved : s.runner.standby ≠ (s.store.removeCue n).nextAfter n := fun same =>
      absurd (Store.nextAfter_above _ n n (same.symm.trans at_)).1 (Nat.lt_irrefl n)
    rw [if_neg moved] at told
    rw [if_pos at_, if_pos at_]
    exact told
  · rw [if_neg at_, if_neg at_]
    exact stored

theorem State.commitRemoveCue_frame : s.commitRemoveCue n = { s with
    lanes := (s.commitRemoveCue n).lanes, store := (s.commitRemoveCue n).store, runner := (s.commitRemoveCue n).runner } := by
  apply State.ext_fields <;> simp

end

/-- Settles O30: the checks passed, and what the commit leaves. -/
theorem stageCommitChangesItsRecord : Obligations.StageCommitChangesItsRecord := by
  intro l tag s m full held complete not_running not_interval no_run same
  have idle : s.record.state.inShow = false :=
    Bool.eq_false_iff.mpr fun h => ((PerfState.inShow_iff _).mp h).elim not_running not_interval
  have free : s.imageBusy m = false := Bool.eq_false_iff.mpr fun busy => by
    have run := (State.imageBusy_iff.mp busy).2
    rw [no_run] at run
    cases run
  refine ⟨fun label pw fk fv pc cu header groups room fits => ?_, fun header present => ?_⟩
  · have missing : s.store.missing m = none := by
      rw [Store.missing_cue header, Store.missingGroup_eq_none groups]
      rfl
    have some_room : ¬ ((s.store.cue? m.target).isNone && decide (Config.cueLimit ≤ s.store.cues.length)) = true := by
      rcases room with held_ | few
      · simp [Option.isSome_iff_ne_none.mp held_]
      · simp [Config.cueLimit, few]
    have exceeded : s.store.exceeded m = none := by
      rw [Store.exceeded_cue header, if_neg some_room, if_neg (Nat.not_lt.mpr fits)]
    have edit : s.store.editCountOf m.target m.header = m.expected := by rw [header]; exact same
    have kind : m.header.kindCode = 1 := by rw [header]; rfl
    have taken := State.commitRefusal_of_taken (g := m.target) complete kind.symm rfl rfl rfl idle free edit missing
      exceeded fun seven => absurd (kind.symm.trans seven) (by decide)
    have image : s.commitImage m = s.commitCue ⟨m.target, label, pw, (readFollow fk fv).getD .none, (flagOf pc).getD false,
        (flagOf cu).getD false, m.actions, 0⟩ := by rw [State.commitImage, header]
    obtain ⟨t, done, store, runner, buffer, others, answered, frame⟩ :=
      exec_stageCommit_effects full tag held taken (image ▸ State.commitCue_noticed s _)
    rw [image] at store runner frame
    rw [State.commitCue_store] at store
    rw [State.commitCue_runner] at runner
    refine ⟨t, done, ?_, fun n other => ?_, ?_, runner, buffer, others, ?_, ?_⟩
    · rw [store, Store.cue?_putCue, if_pos rfl, flagOf_getD, flagOf_getD, same]
      rfl
    · rw [store, Store.cue?_putCue, if_neg other]
    · rw [store]
      rfl
    · have reply : t.commitReply m = be 1 1 ++ be 3 m.target ++ be 2 (t.store.cueEdit m.target) ++ be 3 (t.runner.standby.getD 0)
            ++ be 2 t.store.cues.length ++ be 2 t.store.freeActions ++ be 1 t.store.presentGroups.length
            ++ be 2 t.store.freeMembers := by
        rw [State.commitReply, kind, header]
        rfl
      rw [← reply]
      exact answered
    · rw [frame, State.commitCue_frame]
  · have missing : s.store.missing m = none := by
      rw [Store.missing_removeCue header, if_neg (by simpa using Option.isSome_iff_ne_none.mp present)]
    have exceeded : s.store.exceeded m = none := by rw [Store.exceeded, header]
    have edit : s.store.editCountOf m.target m.header = m.expected := by rw [header]; exact same
    have kind : m.header.kindCode = 6 := by rw [header]; rfl
    have taken := State.commitRefusal_of_taken (g := m.target) complete kind.symm rfl rfl rfl idle free edit missing
      exceeded fun seven => absurd (kind.symm.trans seven) (by decide)
    have image : s.commitImage m = s.commitRemoveCue m.target := by rw [State.commitImage, header]
    obtain ⟨t, done, store, runner, buffer, others, answered, frame⟩ :=
      exec_stageCommit_effects full tag held taken (image ▸ State.commitRemoveCue_noticed s _)
    rw [image] at store runner frame
    rw [State.commitRemoveCue_store] at store
    rw [State.commitRemoveCue_runner] at runner
    have gone : t.store.cue? m.target = none := by rw [store, Store.cue?_removeCue, if_pos rfl]
    refine ⟨t, done, gone, fun n other => ?_, ?_, ?_, buffer, others, ?_, ?_⟩
    · rw [store, Store.cue?_removeCue, if_neg other]
    · rw [store]
      rfl
    · rw [runner, store]
    · have none_ : t.store.editCountOf m.target .removeCue = 0 := by rw [Store.editCountOf, Store.cueEdit, gone]; rfl
      have reply : t.commitReply m = be 1 6 ++ be 3 m.target ++ be 2 0 ++ be 3 (t.runner.standby.getD 0)
            ++ be 2 t.store.cues.length ++ be 2 t.store.freeActions ++ be 1 t.store.presentGroups.length
            ++ be 2 t.store.freeMembers := by
        rw [State.commitReply, kind, header, none_]
        rfl
      rw [← reply]
      exact answered
    · rw [frame, State.commitRemoveCue_frame]

end Sys2Proof.Machine
end

section
/-! STAGE COMMIT taken: groups and setups, and a duck depth (9.4, 6.3). -/

namespace Sys2Proof.Machine

/-- What every commit of a group or setup leaves alike: `u` is the state as its effects leave it. -/
structure CommitTaken (s t u : State) (l : Lane) (m : Image) (i : Instr) (k edit : Nat) : Prop where
  buffer : t.buffer l = some { m with committed := true }
  others : ∀ j, j ≠ l → t.buffer j = s.buffer j
  answered : AnsweredNoticing s t i .ok
    (be 1 k ++ be 3 m.target ++ be 2 edit ++ be 3 (s.runner.standby.getD 0) ++ be 2 t.store.cues.length
      ++ be 2 t.store.freeActions ++ be 1 t.store.presentGroups.length ++ be 2 t.store.freeMembers)
    fun j => if j = l then [] else [.store]
  frame : t = { u with lanes := t.lanes, staging := t.staging }

section
variable {l : Lane} (full : l ≠ .p) (tag : Byte) {s : State} {m : Image} (held : s.buffer l = some m)
  (complete : m.status = .complete) (idle : s.record.state.inShow = false) (edit : s.store.editCountOf m.target m.header = m.expected)
include full held complete idle edit

/-- A commit of a group or a setup that passes its checks. -/
theorem exec_stageCommit_of_setup {k : Nat} (kind : m.header.kindCode = k) (not_cue : k ≠ 1 ∧ k ≠ 6)
    (missing : s.store.missing m = none) (exceeded : s.store.exceeded m = none) (unused : k = 7 → s.store.references m.target = 0)
    (lanes : (s.commitImage m).lanes = s.lanes) (runner : (s.commitImage m).runner = s.runner) :
    ∃ t, exec (.stageCommit l tag k m.target m.declared m.expected) s = .next t ∧
      CommitTaken s t (s.commitImage m) l m (.stageCommit l tag k m.target m.declared m.expected) k
        ((s.commitImage m).store.editCountOf m.target m.header) := by
  have free : s.imageBusy m = false := Bool.eq_false_iff.mpr fun busy => by
    rcases (State.imageBusy_iff.mp busy).1 with one | six
    · exact not_cue.1 (kind.symm.trans one)
    · exact not_cue.2 (kind.symm.trans six)
  have taken := State.commitRefusal_of_taken (g := m.target) complete kind.symm rfl rfl rfl idle free edit missing exceeded
    fun seven => unused (kind.symm.trans seven)
  obtain ⟨t, done, store, runner', buffer, others, answered, frame⟩ :=
    exec_stageCommit_effects full tag held taken ((Noticed.refl s).of_lanes lanes)
  refine ⟨t, done, buffer, others, ?_, frame⟩
  rw [State.commitReply, kind, runner', runner, store] at answered
  rw [store]
  exact answered

end

/-! ## Duck depths (R111) -/

/-- A zone whose setup was committed with depth `dd` in place of another, under show setup `x`. -/
def Zone.depthCommitted (dd : Int) (x : ShowSetup) (z : Zone) : Zone :=
  let begun (kind : RampKind) (d0 d1 : Int) (time : Nat) : Zone :=
    if time = 0 then { z with duck := d1, ramp := none } else { z with duck := d0, ramp := some ⟨kind, d0, d1, time, 0⟩ }
  match z.ramp with
  | some r =>
    match r.kind with
    | .attack => begun .attack (min z.duck dd) dd x.duckAttack
    | .release => if dd < z.duck then begun .release (min z.duck dd) 0 x.duckRelease else z
  | none =>
    if z.targeted = true ∧ z.duck < dd then begun .attack z.duck dd x.duckAttack else { z with duck := min z.duck dd }

theorem State.depthChanged_eq (dd : Int) (s : State) (z : Zone) :
    s.depthChanged dd z = z.depthCommitted dd s.store.showSetup := by
  have low : (if dd < z.duck then { z with duck := dd } else z) = { z with duck := min z.duck dd } := by
    by_cases falls : dd < z.duck
    · rw [if_pos falls, min_eq_right falls.le]
    · rw [if_neg falls, min_eq_left (not_lt.mp falls)]
  unfold State.depthChanged Zone.depthCommitted
  dsimp only
  rw [low]
  cases ramp : z.ramp with
  | some r =>
    obtain ⟨kind, d0, dT, time, elapsed⟩ := r
    cases kind with
    | attack => rfl
    | release =>
      dsimp only
      by_cases falls : dd < z.duck
      · rw [if_pos falls, if_pos falls]
        rfl
      · rw [if_neg falls, if_neg falls, min_eq_left (not_lt.mp falls), ← ramp]
  | none =>
    dsimp only
    by_cases begins : z.targeted = true ∧ z.duck < dd
    · have same : min z.duck dd = z.duck := min_eq_left begins.2.le
      rw [if_pos begins, same, if_pos (by simpa using begins)]
      rfl
    · rw [if_neg begins, if_neg]
      simp only [Bool.and_eq_true, decide_eq_true_eq]
      intro h
      have less : min z.duck dd < dd := h.2
      exact begins ⟨h.1, by omega⟩

section
variable (s : State) {z : Nat} (below : z < 32) (v : ZoneSetup)
include below

theorem State.zoneSetup_commitZoneSetup (y : Nat) : (s.commitZoneSetup z v).zoneSetup y =
    if y = z then { v with editCount := nextEdit (s.zoneSetup z).editCount } else s.zoneSetup y := by
  have store : (s.commitZoneSetup z v).store = s.store.putZoneSetup z v := by
    unfold State.commitZoneSetup
    dsimp only
    split <;> rfl
  refine (congrArg (fun st : Store => st.zoneSetups.getD y {}) store).trans ?_
  refine (Table.getD_update s.store.zoneSetups z y _ {}).trans ?_
  by_cases same : y = z
  · subst same
    rw [if_pos ⟨rfl, below⟩, if_pos rfl]
    rfl
  · rw [if_neg fun h => same h.1, if_neg same]
    rfl

theorem State.zone_commitZoneSetup (y : Nat) : (s.commitZoneSetup z v).zone y =
    if y = z ∧ (s.zoneSetup z).duckDepth ≠ v.duckDepth then (s.zone z).depthCommitted v.duckDepth s.store.showSetup
    else s.zone y := by
  unfold State.commitZoneSetup
  dsimp only
  by_cases kept : (s.zoneSetup z).duckDepth = v.duckDepth
  · rw [if_pos kept, if_neg fun h => h.2 kept]
    rfl
  · rw [if_neg kept, State.zone_onZone]
    by_cases same : y = z
    · rw [if_pos ⟨same, same ▸ below⟩, if_pos ⟨same, kept⟩, State.depthChanged_eq, same]
      rfl
    · rw [if_neg fun h => same h.1, if_neg fun h => same h.1]
      rfl

end

theorem State.commitZoneSetup_frame (s : State) (z : Nat) (v : ZoneSetup) : s.commitZoneSetup z v =
    { s with store := s.store.putZoneSetup z v, zones := (s.commitZoneSetup z v).zones } := by
  unfold State.commitZoneSetup
  dsimp only
  split <;> rfl

theorem Store.group?_update {st : Store} {id : Nat} (below : id < 64) (v : Option Group) (g : Nat) :
    ({ st with groups := st.groups.update id fun _ => v } : Store).group? g = if g = id then v else st.group? g := by
  refine (Table.getD_update st.groups id g _ none).trans ?_
  by_cases same : g = id
  · rw [if_pos ⟨same, same ▸ below⟩, if_pos same]
  · rw [if_neg fun h => same h.1, if_neg same]
    rfl

theorem Store.group?_isSome_lt {st : Store} {g : Nat} (present : (st.group? g).isSome) : g < 64 := by
  by_contra above
  have none_ : st.group? g = none := Table.getD_of_le _ _ _ (Nat.le_of_not_lt above)
  rw [none_] at present
  cases present

theorem polarityOfCode_getD (p : Nat) : (polarityOfCode p).getD .activeHigh = if p = 2 then .activeLow else .activeHigh := by
  unfold polarityOfCode
  split
  · rfl
  · rfl
  · next not1 not2 => exact (if_neg fun e => not2 e).symm

theorem logModeOfCode_getD (m : Nat) : (logModeOfCode m).getD .wrap = if m = 2 then .hold else .wrap := by
  unfold logModeOfCode
  split
  · rfl
  · rfl
  · next not1 not2 => exact (if_neg fun e => not2 e).symm

/-- Settles O31: the checks passed, and the one record that each kind changes. -/
theorem stageCommitChangesGroupsAndSetups : Obligations.StageCommitChangesGroupsAndSetups := by
  intro l tag s m full held complete not_running not_interval raised taken
  have idle : s.record.state.inShow = false :=
    Bool.eq_false_iff.mpr fun h => ((PerfState.inShow_iff _).mp h).elim not_running not_interval
  have same_taken : ∀ {t u k edit}, CommitTaken s t u l m (.stageCommit l tag k m.target m.declared m.expected) k edit → taken t k edit :=
    fun h => ⟨h.buffer, h.others, h.answered⟩
  have raised_eq : nextEdit m.expected = raised := rfl
  clear_value raised taken
  refine ⟨fun label header below edit fits => ?_, fun header edit present unused => ?_, fun dd we th hy ho header below edit => ?_,
    fun ps header target edit => ?_, fun mode lim att rel header target edit => ?_⟩
  · have image : s.commitImage m = { s with store := s.store.putGroup m.target label m.members } := by rw [State.commitImage, header]
    have groups : ∀ g, (s.store.putGroup m.target label m.members).group? g =
        if g = m.target then some ⟨label, m.members, raised⟩ else s.store.group? g := fun g => by
      rw [← raised_eq, ← edit]
      exact Store.group?_update below _ g
    obtain ⟨t, done, h⟩ := exec_stageCommit_of_setup full tag held complete idle (by rw [header]; exact edit) (k := 2)
      (by rw [header]; rfl) (by decide) (by rw [Store.missing, header])
      (by rw [Store.exceeded_group header, if_neg (Nat.not_lt.mpr fits)]) nofun (by rw [image]) (by rw [image])
    have frame := h.frame
    have after : (s.commitImage m).store.editCountOf m.target m.header = raised := by
      rw [image, header]
      change (s.store.putGroup m.target label m.members).groupEdit m.target = _
      rw [Store.groupEdit, groups, if_pos rfl]
      rfl
    rw [after] at h
    rw [image] at frame
    refine ⟨t, done, same_taken h, fun g => ?_, ?_, ?_⟩
    · rw [frame]
      exact groups g
    · rw [frame]
      rfl
    · rw [frame]
  · have image : s.commitImage m = { s with store := s.store.removeGroup m.target } := by rw [State.commitImage, header]
    have groups : ∀ g, (s.store.removeGroup m.target).group? g = if g = m.target then none else s.store.group? g :=
      Store.group?_update (Store.group?_isSome_lt present) none
    obtain ⟨t, done, h⟩ := exec_stageCommit_of_setup full tag held complete idle (by rw [header]; exact edit) (k := 7)
      (by rw [header]; rfl) (by decide)
      (by rw [Store.missing_removeGroup header, if_neg (by simpa using Option.isSome_iff_ne_none.mp present)])
      (by rw [Store.exceeded, header]) (fun _ => unused) (by rw [image]) (by rw [image])
    have frame := h.frame
    have after : (s.commitImage m).store.editCountOf m.target m.header = 0 := by
      rw [image, header]
      change (s.store.removeGroup m.target).groupEdit m.target = _
      rw [Store.groupEdit, groups, if_pos rfl]
      rfl
    rw [after] at h
    rw [image] at frame
    refine ⟨t, done, same_taken h, fun g => ?_, ?_, ?_⟩
    · rw [frame]
      exact groups g
    · rw [frame]
      rfl
    · rw [frame]
  · have image : s.commitImage m = s.commitZoneSetup m.target ⟨dd, (flagOf we).getD false, th, hy, ho, 0⟩ := by
      rw [State.commitImage, header]
    have whole := s.commitZoneSetup_frame m.target ⟨dd, (flagOf we).getD false, th, hy, ho, 0⟩
    have setups : ∀ z, (s.commitImage m).zoneSetup z =
        if z = m.target then ⟨dd, decide (we = 1), th, hy, ho, raised⟩ else s.zoneSetup z := fun z => by
      rw [image, State.zoneSetup_commitZoneSetup s below, flagOf_getD, edit, ← raised_eq]
    have before : s.store.editCountOf m.target m.header = m.expected := by
      rw [header, Store.editCountOf_zoneSetup, if_pos below]
      exact edit
    obtain ⟨t, done, h⟩ := exec_stageCommit_of_setup full tag held complete idle before (k := 3)
      (by rw [header]; rfl) (by decide) (by rw [Store.missing, header]) (by rw [Store.exceeded, header]) nofun
      (by rw [image, whole]) (by rw [image, whole])
    have frame := h.frame
    have after : (s.commitImage m).store.editCountOf m.target m.header = raised := by
      rw [header, Store.editCountOf_zoneSetup, if_pos below]
      exact congrArg ZoneSetup.editCount ((setups m.target).trans (if_pos rfl))
    have zones : ∀ y, t.zone y = if y = m.target ∧ (s.zoneSetup m.target).duckDepth ≠ dd then
        (s.zone m.target).depthCommitted dd s.store.showSetup else s.zone y := fun y => by
      rw [frame, image]
      exact s.zone_commitZoneSetup below _ y
    rw [after] at h
    refine ⟨t, done, same_taken h, fun z => ?_, ?_, fun z other => ?_, ?_, ?_⟩
    · rw [frame]
      exact setups z
    · rw [frame, image, whole]
      rfl
    · rw [zones, if_neg fun h => other h.1]
    · refine ⟨fun kept => ?_, fun changed => ⟨fun r ramp attack => ?_, fun r ramp release => ?_, fun ramp => ?_⟩⟩
      · rw [zones, if_neg fun h => h.2 kept]
      · rw [zones, if_pos ⟨rfl, changed⟩, Zone.depthCommitted, ramp]
        dsimp only
        rw [attack]
      · rw [zones, if_pos ⟨rfl, changed⟩, Zone.depthCommitted, ramp]
        dsimp only
        rw [release]
      · rw [zones, if_pos ⟨rfl, changed⟩, Zone.depthCommitted, ramp]
    · rw [frame, image, whole]
  · have image : s.commitImage m = { s with store := { s.store with triggerSetup :=
        ⟨.tabulate _ fun k => (polarityOfCode (ps.getD k 1)).getD .activeHigh, nextEdit s.store.triggerSetup.editCount⟩ } } := by
      rw [State.commitImage, header]
    have before : s.store.editCountOf m.target m.header = m.expected := by
      rw [header, target]
      exact edit
    obtain ⟨t, done, h⟩ := exec_stageCommit_of_setup full tag held complete idle before (k := 4)
      (by rw [header]; rfl) (by decide) (by rw [Store.missing, header]) (by rw [Store.exceeded, header]) nofun
      (by rw [image]) (by rw [image])
    have frame := h.frame
    have after : (s.commitImage m).store.editCountOf m.target m.header = raised := by
      rw [image, header, target, ← raised_eq, ← edit]
      rfl
    rw [after] at h
    rw [image] at frame
    refine ⟨t, done, same_taken h, fun n below => ?_, ?_, ?_, ?_⟩
    · rw [frame]
      exact (Table.getD_tabulate _ _ _ n below).trans (polarityOfCode_getD _)
    · rw [frame, ← raised_eq, ← edit]
    · rw [frame]
    · rw [frame]
  · have image : s.commitImage m = { s with store := { s.store with showSetup :=
        ⟨(logModeOfCode mode).getD .wrap, lim, att, rel, nextEdit s.store.showSetup.editCount⟩ } } := by
      rw [State.commitImage, header]
    have before : s.store.editCountOf m.target m.header = m.expected := by
      rw [header, target]
      exact edit
    obtain ⟨t, done, h⟩ := exec_stageCommit_of_setup full tag held complete idle before (k := 5)
      (by rw [header]; rfl) (by decide) (by rw [Store.missing, header]) (by rw [Store.exceeded, header]) nofun
      (by rw [image]) (by rw [image])
    have frame := h.frame
    have after : (s.commitImage m).store.editCountOf m.target m.header = raised := by
      rw [image, header, target, ← raised_eq, ← edit]
      rfl
    rw [after] at h
    rw [image] at frame
    refine ⟨t, done, same_taken h, ?_, ?_⟩
    · rw [frame, ← raised_eq, ← edit, logModeOfCode_getD]
    · rw [frame]

end Sys2Proof.Machine
end

section
/-! The reads of the store and of the staging buffers (4.9, 9.2). -/

namespace Sys2Proof.Machine

/-! ## Lists with indexes -/

theorem mapFrom_eq_zipIdx {α β : Type} (f : Nat → α → β) (k : Nat) (xs : List α) :
    mapFrom f k xs = (xs.zipIdx k).map fun p => f p.2 p.1 := by
  induction xs generalizing k with
  | nil => rfl
  | cons x xs ih => rw [mapFrom, ih, List.zipIdx_cons, List.map_cons]

theorem itemsFrom_eq (first : Nat) (acts : List Action) : itemsFrom first acts =
    (((acts.drop first).take 12).zipIdx first).flatMap fun p => be 1 p.2 ++ p.1.chars := by
  have dropped : (acts.zipIdx 0).drop first = (acts.drop first).zipIdx first := by
    refine List.ext_getElem? fun j => ?_
    simp only [List.getElem?_drop, List.getElem?_zipIdx, Nat.zero_add]
  have taken : ((acts.drop first).zipIdx first).take 12 = ((acts.drop first).take 12).zipIdx first := by
    refine List.ext_getElem? fun j => ?_
    simp only [List.getElem?_take, List.getElem?_zipIdx]
    split <;> rfl
  rw [itemsFrom, mapFrom_eq_zipIdx, ← List.map_drop, ← List.map_take, dropped, taken, List.flatMap]

/-! ## CUE LIST -/

/-- In a stack in number order further cues stand after those given exactly where one is above the last of them (R77). -/
theorem Store.more_iff {st : Store} (ascending : st.cues.Pairwise fun c d => c.number < d.number) (x : Nat) {n : Nat} (some_ : 1 ≤ n) :
    st.more (st.cuesFrom x n) = decide (n < (st.cues.filter fun c => decide (x ≤ c.number)).length) := by
  have sorted := ascending.filter fun c => decide (x ≤ c.number)
  have held : ∀ c, c ∈ (st.cues.filter fun c => decide (x ≤ c.number)) ↔ c ∈ st.cues ∧ x ≤ c.number := fun c => by simp
  unfold Store.more Store.cuesFrom
  generalize (st.cues.filter fun c => decide (x ≤ c.number)) = cs at sorted held
  rw [Bool.eq_iff_iff, decide_eq_true_eq, List.getLast?_take, if_neg (by omega)]
  by_cases further : n < cs.length
  · have last : cs[n - 1]? = some cs[n - 1] := List.getElem?_eq_getElem (by omega)
    rw [last]
    refine iff_of_true ?_ further
    have above : cs[n - 1].number < cs[n].number := List.pairwise_iff_getElem.mp sorted _ _ (by omega) further (by omega)
    dsimp only [Option.some_or]
    by_contra none_
    rw [Option.not_isSome_iff_eq_none, Store.nextAfter_eq_none_iff] at none_
    have low := none_ _ ((held cs[n]).mp (List.getElem_mem _)).1
    omega
  · have whole : cs[n - 1]?.or cs.getLast? = cs.getLast? := by
      by_cases exact_ : n = cs.length
      · rw [exact_, ← List.getLast?_eq_getElem?, Option.or_self]
      · rw [List.getElem?_eq_none (by omega), Option.none_or]
    refine iff_of_false ?_ further
    rw [whole]
    cases last : cs.getLast? with
    | none => exact Bool.false_ne_true
    | some c =>
      dsimp only
      rw [Bool.not_eq_true, Option.isSome_eq_false_iff, Option.isNone_iff_eq_none, Store.nextAfter_eq_none_iff]
      intro d mem
      obtain ⟨before, rfl⟩ := List.getLast?_eq_some_iff.mp last
      have from_ := ((held c).mp (List.mem_append_right _ List.mem_cons_self)).2
      by_cases low : x ≤ d.number
      · rcases List.mem_append.mp ((held d).mpr ⟨mem, low⟩) with earlier | same
        · exact ((List.pairwise_append.mp sorted).2.2 d earlier c List.mem_cons_self).le
        · rw [List.mem_singleton.mp same]
      · omega

theorem cueEntry_eq (c : Cue) : cueEntry c = be 3 c.number ++ be 2 c.editCount ++ be 1 c.actions.length ++ be 3 c.preWait
    ++ be 1 c.follow.kindCode ++ be 3 c.follow.value ++ [flag c.promptCallable, flag c.curtain] := by
  rw [cueEntry, followBytes, ← List.append_assoc]

/-! ## GROUP LIST -/

theorem Store.presentGroups_eq (st : Store) : st.presentGroups =
    ((List.range 64).filter fun g => (st.group? g).isSome).filterMap fun g => (st.group? g).map fun r => (g, r) := by
  rw [Store.presentGroups, mapFrom_toList _ st.groups none, List.filterMap_map]
  change (List.range 64).filterMap _ = _
  induction List.range 64 with
  | nil => rfl
  | cons g gs ih =>
    have head : (id ∘ fun k => Option.map (fun r => (k, r)) (st.groups.getD k none)) g = (st.group? g).map fun r => (g, r) := rfl
    cases held : st.group? g with
    | none =>
      rw [held] at head
      rw [List.filterMap_cons, head, List.filter_cons_of_neg (by rw [held]; exact Bool.false_ne_true)]
      exact ih
    | some r =>
      rw [held] at head
      rw [List.filterMap_cons, head, List.filter_cons_of_pos (by rw [held]; rfl), List.filterMap_cons, held]
      exact congrArg _ ih

/-- The number of members of a group, 0 where it is absent. -/
def Store.groupSize (st : Store) (g : Nat) : Nat := ((st.group? g).map fun r => r.members.length).getD 0

theorem Store.presentGroups_map {β : Type} (st : Store) (f : Nat → Nat → β) :
    (st.presentGroups.map fun p => f p.1 p.2.members.length) =
      ((List.range 64).filter fun g => (st.group? g).isSome).map fun g => f g (st.groupSize g) := by
  rw [Store.presentGroups_eq]
  generalize List.range 64 = gs
  induction gs with
  | nil => rfl
  | cons g gs ih =>
    cases held : st.group? g with
    | none =>
      rw [List.filter_cons_of_neg (by rw [held]; exact Bool.false_ne_true)]
      exact ih
    | some r =>
      rw [List.filter_cons_of_pos (by rw [held]; rfl), List.filterMap_cons, held, List.map_cons, ← ih, Store.groupSize, held]
      rfl

/-! ## The reads -/

section
variable (l : Lane) (tag : Byte) {s : State}

theorem exec_cueList_served {x n : Nat} (inside : x ≤ 9999999) (low : 1 ≤ n) (high : n ≤ 16) : exec (.cueList l tag x n) s =
    .next (s.answer (.cueList l tag x n) .ok (be 2 s.store.cues.length ++ be 2 s.store.freeActions
      ++ (s.store.cuesFrom x n).flatMap cueEntry ++ [flag (s.store.more (s.store.cuesFrom x n))])) := by
  have served : ¬ (decide (Config.maxCue < x) || decide (n = 0) || decide (16 < n)) = true := by
    simp [Config.maxCue]
    omega
  rw [exec, execCueList, if_neg served]

theorem exec_cueRead_served {c x : Nat} {rec : Cue} (held : s.store.cue? c = some rec) (inside : x ≤ 31) : exec (.cueRead l tag c x) s =
    .next (s.answer (.cueRead l tag c x) .ok (be 3 rec.number ++ nameBytes rec.label ++ be 3 rec.preWait ++ followBytes rec.follow
      ++ [flag rec.promptCallable, flag rec.curtain] ++ be 2 rec.editCount ++ be 1 rec.actions.length
      ++ itemsFrom x rec.actions)) := by
  rw [exec, execCueRead, held]
  exact if_neg (by omega)

theorem exec_stageVerify_image {x : Nat} {m : Image} (full : l ≠ .p) (held : s.buffer l = some m)
    (inside : m.header.kindCode = 1 → x ≤ 31) (fits : (m.chars x).length ≤ 250) : exec (.stageVerify l tag x) s =
    .next (s.answer (.stageVerify l tag x) .ok (m.chars x)) := by
  have served : ¬ (m.isCue && decide (31 < x)) = true := by
    rw [Bool.and_eq_true, Image.isCue, beq_iff_eq, decide_eq_true_eq]
    rintro ⟨cue, out⟩
    exact absurd (inside cue) (by omega)
  have carried : fitBody (m.chars x) = m.chars x := if_pos fits
  rw [exec, execStageVerify, fullOnly_full l _ _ _ full, held]
  dsimp only
  rw [if_neg served, carried]

end

theorem Image.chars_eq (m : Image) (x : Nat) : m.chars x =
    be 1 (statusCode (some m)) ++ reasonByte m.status ++ indexBytes m.status ++ be 1 m.header.kindCode
      ++ be 3 m.target ++ headerBytes m.header ++ be 1 m.declared ++ be 1 (m.actions.length + m.members.length)
      ++ be 2 m.expected ++ flag m.committed :: m.itemBytes x := by
  rw [Image.chars, List.append_assoc _ [flag m.committed]]
  rfl

/-- Settles O26, one read for each clause. -/
theorem storeAndStagingReadsReportTheRecords : Obligations.StoreAndStagingReadsReportTheRecords := by
  intro l tag s
  refine ⟨fun x n ascending inside low high => ?_, fun c x absent => ?_, fun c x rec held inside => ?_, fun g absent => ?_,
    fun g rec held => ?_, ?_, fun z below => ?_, fun z => ?_, fun z => ?_, fun x full empty => ?_, fun x m full held inside => ?_⟩
  · refine .of_answer rfl ((exec_cueList_served l tag inside low high).trans ?_)
    rw [Store.more_iff ascending x low, Store.cuesFrom, List.flatMap_congr fun c _ => cueEntry_eq c]
    rfl
  · refine .of_answer rfl ?_
    rw [exec, execCueRead, absent]
  · refine .of_answer rfl ((exec_cueRead_served l tag held inside).trans ?_)
    rw [itemsFrom_eq, followBytes, ← List.append_assoc _ (be 1 _)]
    rfl
  · refine .of_answer rfl ?_
    rw [exec, execGroupRead, absent]
  · refine .of_answer rfl ?_
    rw [exec, execGroupRead, held]
    rfl
  · have ids : s.store.presentGroups.length = ((List.range 64).filter fun g => (s.store.group? g).isSome).length := by
      have both := congrArg List.length (s.store.presentGroups_map fun g _ => g)
      rwa [List.length_map, List.length_map] at both
    have sizes : s.store.membersUsed = (((List.range 64).filter fun g => (s.store.group? g).isSome).map s.store.groupSize).sum :=
      congrArg List.sum (s.store.presentGroups_map fun _ k => k)
    have entries := congrArg List.flatten (s.store.presentGroups_map fun g k => be 1 g ++ be 1 k)
    refine .of_answer rfl ?_
    rw [exec, execGroupList, ids, Store.freeMembers, sizes]
    exact congrArg (fun e => Host.Outcome.next (s.answer (.groupList l tag) .ok (_ ++ be 2 _ ++ e))) entries
  · have served : exec (.setupRead l tag 1 z) s = .next (s.answer (.setupRead l tag 1 z) .ok (s.zoneSetup z).chars) :=
      if_neg (Nat.not_le.mpr below)
    refine .of_answer rfl (served.trans ?_)
    rw [ZoneSetup.chars, List.append_assoc (signed (s.zoneSetup z).duckDepth)]
    rfl
  · refine .of_answer rfl (Eq.trans (b := .next (s.answer (.setupRead l tag 2 z) .ok s.store.triggerSetup.chars)) rfl ?_)
    rw [TriggerSetup.chars, Table.toList_eq_range _ Polarity.activeHigh, List.flatMap_map]
  · exact .of_answer rfl rfl
  · refine .of_answer rfl ?_
    rw [exec, execStageVerify, fullOnly_full l _ _ _ full, empty]
    rfl
  · intro fields fits
    have same : m.chars x = fields := m.chars_eq x
    exact .of_answer rfl ((exec_stageVerify_image l tag full held inside (by rw [same]; exact fits)).trans (by rw [same]))

end Sys2Proof.Machine
end

section
/-! Action items: the characters of an action read back (10.7, R64, R161). -/

namespace Sys2Proof.Machine

/-! ## Targets and codes read back -/

theorem ActTarget.chars_read {t : ActTarget} (fits : t.FitsItem) : ∃ k a b, t.chars = [k, a, b] ∧
    (t.InRange → readTarget k a b = some t) ∧ (¬ t.InRange → readTarget k a b = none) := by
  cases t with
  | point n =>
    have read := two_read n fits
    refine ⟨_, _, _, by rw [ActTarget.chars, be_one, be_two]; rfl, fun inside => ?_, fun out => ?_⟩
    · exact (if_pos (by rw [read]; exact inside)).trans (by rw [read])
    · exact if_neg (by rw [read]; exact out)
  | group g =>
    have read := two_read g fits
    refine ⟨_, _, _, by rw [ActTarget.chars, be_one, be_two]; rfl, fun inside => ?_, fun out => ?_⟩
    · exact (if_pos (by rw [read]; exact inside)).trans (by rw [read])
    · exact if_neg (by rw [read]; exact out)

theorem curveOfCode_code (cv : Curve) : curveOfCode (BitVec.ofNat 8 cv.code).toNat = some cv := by cases cv <;> rfl

theorem flagOf_flag (b : Bool) : flagOf (flag b).toNat = some b := by cases b <;> rfl

/-! ## Items read back -/

section
variable (c1 c2 c3 c4 c5 c6 c7 c8 c9 c10 c11 : Byte)

theorem readAction_level {t : ActTarget} {cv : Curve} {clear : Bool} (target : readTarget c1 c2 c3 = some t)
    (curve : curveOfCode c9.toNat = some cv) (trims : flagOf c10.toNat = some clear) :
    readAction [1, c1, c2, c3, c4, c5, c6, c7, c8, c9, c10, 0] =
      if -900 ≤ int2 c4 c5 ∧ int2 c4 c5 ≤ 120 ∧ nat3 c6 c7 c8 ≤ 600000 then .ok (.level t (int2 c4 c5) (nat3 c6 c7 c8) cv clear)
      else .error .range := by
  have one : (1 : Byte).toNat = 1 := rfl
  simp only [readAction, one, target, curve, trims]
  by_cases inside : -900 ≤ int2 c4 c5 ∧ int2 c4 c5 ≤ 120 ∧ nat3 c6 c7 c8 ≤ 600000
  · simp [inside]
  · rw [if_neg inside]
    simp only [Bool.and_eq_true, decide_eq_true_eq, and_assoc]
    rw [if_neg]
    exact fun h => inside ⟨h.1, h.2.1, h.2.2.1⟩

theorem readAction_level_untargeted (untargeted : readTarget c1 c2 c3 = none) :
    readAction [1, c1, c2, c3, c4, c5, c6, c7, c8, c9, c10, c11] = .error .range := by
  have one : (1 : Byte).toNat = 1 := rfl
  simp only [readAction, one, untargeted]

theorem readAction_route : readAction [2, c1, c2, 0, 0, 0, 0, 0, 0, 0, 0, 0] =
    if 32 ≤ c1.toNat then .error .range else if c2.toNat < 24 then .ok (.route c1.toNat (some c2.toNat))
    else if c2.toNat = 255 then .ok (.route c1.toNat none) else .error .range := by
  have two : (2 : Byte).toNat = 2 := rfl
  simp only [readAction, two]
  by_cases zone : 32 ≤ c1.toNat
  · simp [Config.zones, zone]
  · by_cases mix : c2.toNat < 24
    · simp [Config.zones, Config.mixes, zone, mix]
    · by_cases none_ : c2.toNat = 255
      · simp [Config.zones, Config.mixes, zone, none_]
      · simp [Config.zones, Config.mixes, zone, mix, none_]

theorem readAction_mask {on : Bool} (read : onOfCode c2.toNat = some on) : readAction [3, c1, c2, 0, 0, 0, 0, 0, 0, 0, 0, 0] =
    if c1.toNat < 24 then .ok (.mask c1.toNat on) else .error .range := by
  have three : (3 : Byte).toNat = 3 := rfl
  simp only [readAction, three, read]
  by_cases mix : c1.toNat < 24
  · simp [Config.mixes, mix]
  · simp [Config.mixes, mix]

theorem readAction_pulse : readAction [4, c1, 1, c3, c4, 0, 0, 0, 0, 0, 0, 0] =
    if c1.toNat < 16 ∧ 1 ≤ nat2 c3 c4 ∧ nat2 c3 c4 ≤ 10000 then .ok (.trigger c1.toNat (.pulse (nat2 c3 c4))) else .error .range := by
  have four : (4 : Byte).toNat = 4 := rfl
  have one : (1 : Byte).toNat = 1 := rfl
  simp only [readAction, four, one]
  by_cases line : c1.toNat < 16
  · by_cases width : 1 ≤ nat2 c3 c4 ∧ nat2 c3 c4 ≤ 10000
    · simp [Config.lines, Nat.not_le.mpr line, line, width]
    · simp [Config.lines, Nat.not_le.mpr line, line, width]
  · simp [Config.lines, line, Nat.le_of_not_lt line]

theorem readAction_set : readAction [4, c1, 2, 0, 0, 0, 0, 0, 0, 0, 0, 0] =
    if c1.toNat < 16 then .ok (.trigger c1.toNat .set) else .error .range := by
  have four : (4 : Byte).toNat = 4 := rfl
  have two : (2 : Byte).toNat = 2 := rfl
  simp only [readAction, four, two]
  by_cases line : c1.toNat < 16
  · simp [Config.lines, Nat.not_le.mpr line, line, nat2]
  · simp [Config.lines, line, Nat.le_of_not_lt line]

theorem readAction_clear : readAction [4, c1, 3, 0, 0, 0, 0, 0, 0, 0, 0, 0] =
    if c1.toNat < 16 then .ok (.trigger c1.toNat .clear) else .error .range := by
  have four : (4 : Byte).toNat = 4 := rfl
  have three : (3 : Byte).toNat = 3 := rfl
  simp only [readAction, four, three]
  by_cases line : c1.toNat < 16
  · simp [Config.lines, Nat.not_le.mpr line, line, nat2]
  · simp [Config.lines, line, Nat.le_of_not_lt line]

theorem readAction_repeat : readAction [4, c1, 4, c3, c4, c5, 0, 0, 0, 0, 0, 0] =
    if c1.toNat < 16 ∧ 20 ≤ nat2 c3 c4 ∧ nat2 c3 c4 ≤ 10000 ∧ 1 ≤ c5.toNat then
      .ok (.trigger c1.toNat (.repeating (nat2 c3 c4) c5.toNat)) else .error .range := by
  have four : (4 : Byte).toNat = 4 := rfl
  simp only [readAction, four]
  by_cases line : c1.toNat < 16
  · by_cases turns : 20 ≤ nat2 c3 c4 ∧ nat2 c3 c4 ≤ 10000 ∧ 1 ≤ c5.toNat
    · simp [Config.lines, Nat.not_le.mpr line, line, turns]
    · simp [Config.lines, Nat.not_le.mpr line, line, turns, and_assoc]
  · simp [Config.lines, line, Nat.le_of_not_lt line]

theorem readAction_halt {t : ActTarget} (target : readTarget c1 c2 c3 = some t) :
    readAction [5, c1, c2, c3, 0, 0, 0, 0, 0, 0, 0, 0] = .ok (.halt t) := by
  simp [readAction, target]

theorem readAction_halt_untargeted (untargeted : readTarget c1 c2 c3 = none) :
    readAction [5, c1, c2, c3, c4, c5, c6, c7, c8, c9, c10, c11] = .error .range := by
  have five : (5 : Byte).toNat = 5 := rfl
  simp only [readAction, five, untargeted]

end

theorem list_eq_of_length_twelve {cs : List Byte} (length : cs.length = 12) : cs =
    [cs[0], cs[1], cs[2], cs[3], cs[4], cs[5], cs[6], cs[7], cs[8], cs[9], cs[10], cs[11]] := by
  refine List.ext_getElem length fun k below _ => ?_
  have small : k < 12 := length ▸ below
  interval_cases k <;> rfl

theorem readAction_unknown {item : List Byte} (length : item.length = 12) (unknown : item.headD 0 ∉ [1, 2, 3, 4, 5]) :
    readAction item = .error .kind := by
  obtain ⟨k, c1, c2, c3, c4, c5, c6, c7, c8, c9, c10, c11, rfl⟩ : ∃ k c1 c2 c3 c4 c5 c6 c7 c8 c9 c10 c11,
      item = [k, c1, c2, c3, c4, c5, c6, c7, c8, c9, c10, c11] :=
    ⟨_, _, _, _, _, _, _, _, _, _, _, _, list_eq_of_length_twelve length⟩
  have other : ∀ n : Nat, n < 256 → BitVec.ofNat 8 n ∈ ([1, 2, 3, 4, 5] : List Byte) → k.toNat ≠ n := fun n below mem same => by
    refine unknown ?_
    rw [← same, BitVec.ofNat_toNat] at mem
    simpa using mem
  unfold readAction
  dsimp only
  split
  · next e => exact absurd e (other 1 (by decide) (by decide))
  · next e => exact absurd e (other 2 (by decide) (by decide))
  · next e => exact absurd e (other 3 (by decide) (by decide))
  · next e => exact absurd e (other 4 (by decide) (by decide))
  · next e => exact absurd e (other 5 (by decide) (by decide))
  · rfl

/-! ## An action's item (10.7) -/

/-- The item of an action whose numbers fit it, read back. -/
theorem readAction_chars {a : Action} (fits : a.FitsItem) :
    (a.InRange → readAction a.chars = .ok a) ∧ (¬ a.InRange → readAction a.chars = .error .range) := by
  cases a with
  | level t v time cv clear =>
    obtain ⟨target, low, high, short⟩ := fits
    obtain ⟨k, x, y, chars, good, bad⟩ := ActTarget.chars_read target
    obtain ⟨p, q, word, value⟩ := signed_read v low high
    have item : (Action.level t v time cv clear).chars = [1, k, x, y, p, q, BitVec.ofNat 8 (time / 65536), BitVec.ofNat 8 (time / 256),
        BitVec.ofNat 8 time, BitVec.ofNat 8 cv.code, flag clear, 0] := by
      rw [Action.chars, chars, word, be_three, be_one, be_one, be_one]
      rfl
    have duration := three_read time short
    rw [item]
    by_cases there : t.InRange
    · rw [readAction_level _ _ _ _ _ _ _ _ _ _ (good there) (curveOfCode_code cv) (flagOf_flag clear), value, duration]
      exact ⟨fun inside => if_pos inside.2, fun out => if_neg fun h => out ⟨there, h⟩⟩
    · rw [readAction_level_untargeted _ _ _ _ _ _ _ _ _ _ _ (bad there)]
      exact ⟨fun inside => absurd inside.1 there, fun _ => rfl⟩
  | route z m =>
    obtain ⟨zone, mixes⟩ := fits
    have item : (Action.route z m).chars = [2, BitVec.ofNat 8 z, BitVec.ofNat 8 (m.getD 255), 0, 0, 0, 0, 0, 0, 0, 0, 0] := by
      rw [Action.chars, mixBytes, be_one, be_one, be_one]
      rfl
    rw [item, readAction_route, one_read z zone]
    by_cases there : z < 32
    · rw [if_neg (Nat.not_le.mpr there)]
      cases m with
      | none =>
        exact ⟨fun _ => rfl, fun out => absurd ⟨there, nofun⟩ out⟩
      | some k =>
        have small := mixes k rfl
        rw [Option.getD_some, one_read k (by omega)]
        by_cases mix : k < 24
        · rw [if_pos mix]
          exact ⟨fun _ => rfl, fun out => absurd ⟨there, fun _ same => Option.some.inj same ▸ mix⟩ out⟩
        · rw [if_neg mix, if_neg (Nat.ne_of_lt small)]
          exact ⟨fun inside => absurd (inside.2 k rfl) mix, fun _ => rfl⟩
    · rw [if_pos (Nat.le_of_not_lt there)]
      exact ⟨fun inside => absurd inside.1 there, fun _ => rfl⟩
  | mask m on =>
    have item : (Action.mask m on).chars = [3, BitVec.ofNat 8 m, BitVec.ofNat 8 (onCode on), 0, 0, 0, 0, 0, 0, 0, 0, 0] := by
      rw [Action.chars, be_one, be_one, be_one]
      rfl
    have code : (BitVec.ofNat 8 (onCode on)).toNat = onCode on := by cases on <;> rfl
    rw [item, readAction_mask _ _ (code ▸ onOfCode_onCode on), one_read m fits]
    exact ⟨fun inside => if_pos inside, fun out => if_neg out⟩
  | trigger n mode =>
    obtain ⟨line, fits⟩ := fits
    cases mode with
    | pulse w =>
      have item : (Action.trigger n (.pulse w)).chars =
          [4, BitVec.ofNat 8 n, 1, BitVec.ofNat 8 (w / 256), BitVec.ofNat 8 w, 0, 0, 0, 0, 0, 0, 0] := by
        rw [Action.chars, be_one, be_one, be_one, be_two]
        rfl
      rw [item, readAction_pulse, one_read n line, two_read w fits]
      exact ⟨fun inside => if_pos inside, fun out => if_neg out⟩
    | set =>
      have item : (Action.trigger n .set).chars = [4, BitVec.ofNat 8 n, 2, 0, 0, 0, 0, 0, 0, 0, 0, 0] := by
        rw [Action.chars, be_one, be_one, be_one]
        rfl
      rw [item, readAction_set, one_read n line]
      exact ⟨fun inside => if_pos inside.1, fun out => if_neg fun there => out ⟨there, trivial⟩⟩
    | clear =>
      have item : (Action.trigger n .clear).chars = [4, BitVec.ofNat 8 n, 3, 0, 0, 0, 0, 0, 0, 0, 0, 0] := by
        rw [Action.chars, be_one, be_one, be_one]
        rfl
      rw [item, readAction_clear, one_read n line]
      exact ⟨fun inside => if_pos inside.1, fun out => if_neg fun there => out ⟨there, trivial⟩⟩
    | repeating t turns =>
      obtain ⟨period, count⟩ := fits
      have item : (Action.trigger n (.repeating t turns)).chars =
          [4, BitVec.ofNat 8 n, 4, BitVec.ofNat 8 (t / 256), BitVec.ofNat 8 t, BitVec.ofNat 8 turns, 0, 0, 0, 0, 0, 0] := by
        rw [Action.chars, be_one, be_one, be_one, be_two]
        rfl
      rw [item, readAction_repeat, one_read n line, two_read t period, one_read turns count]
      refine ⟨fun inside => if_pos ?_, fun out => if_neg fun inside => out ?_⟩
      · obtain ⟨there, low, high, some_, _⟩ := inside
        exact ⟨there, low, high, some_⟩
      · obtain ⟨there, low, high, some_⟩ := inside
        exact ⟨there, low, high, some_, Nat.le_of_lt_succ count⟩
  | halt t =>
    obtain ⟨k, x, y, chars, good, bad⟩ := ActTarget.chars_read fits
    have item : (Action.halt t).chars = [5, k, x, y, 0, 0, 0, 0, 0, 0, 0, 0] := by
      rw [Action.chars, chars, be_one]
      rfl
    rw [item]
    exact ⟨fun there => readAction_halt _ _ _ (good there), fun out => readAction_halt_untargeted _ _ _ _ _ _ _ _ _ _ _ (bad out)⟩

end Sys2Proof.Machine
end

section
/-! STAGE ADD (9.2): items cut from a body, staged in order up to the first fault. -/

namespace Sys2Proof.Machine

/-! ## Bodies cut into items -/

theorem cutItems_flatten {w : Nat} {chunks : List (List Byte)} (whole : ∀ c ∈ chunks, c.length = w) (n : Nat) (cs : List Byte) :
    cutItems w (chunks.length + n) (chunks.flatten ++ cs) = chunks ++ cutItems w n cs := by
  induction chunks with
  | nil => simp
  | cons c chunks ih =>
    have width : c.length = w := whole c (by simp)
    rw [List.length_cons, Nat.succ_add, cutItems, List.flatten_cons, List.append_assoc, List.take_left' width,
      List.drop_left' width, ih fun d mem => whole d (List.mem_cons_of_mem c mem), List.cons_append]

theorem itemsOf_whole {h : StageHeader} {w n : Nat} {cs : List Byte} (kind : itemLength h = some w) (pos : 0 < w)
    (whole : cs.length = w * n) (some_ : 1 ≤ n) (most : n ≤ 12) : itemsOf h cs = some (cutItems w n cs) := by
  have cut : cs.length / w = n := by rw [whole, Nat.mul_div_cancel_left n pos]
  have rest : cs.length % w = 0 := by rw [whole, Nat.mul_mod_right]
  simp [itemsOf, kind, cut, rest, some_, most]

theorem itemsOf_eq_none {h : StageHeader} {w : Nat} {cs : List Byte} (kind : itemLength h = some w)
    (bad : cs.length % w ≠ 0 ∨ cs.length / w < 1 ∨ 12 < cs.length / w) : itemsOf h cs = none := by
  simp only [itemsOf, kind, Bool.and_eq_true, decide_eq_true_eq]
  rw [if_neg]
  omega

/-! ## One item staged -/

section
variable {m : Image} {item : List Byte}

theorem Image.filled_eq (m : Image) :
    m.filled = { m with status := if m.staged = m.declared then .complete else m.status } := by
  unfold Image.filled
  split <;> rfl

theorem Image.addItem_overflow (full : m.declared ≤ m.staged) :
    m.addItem item = { m with status := .invalid .overflow (some m.staged) } := if_pos full

section
variable (room : m.staged < m.declared)
include room

theorem Image.addItem_action {label : List Byte} {pw fk fv pc cu : Nat} (kind : m.header = .cue label pw fk fv pc cu)
    {a : Action} (read : readAction item = .ok a) :
    m.addItem item = Image.filled { m with actions := m.actions ++ [a] } := by
  simp [Image.addItem, Nat.not_le.mpr room, kind, read]

theorem Image.addItem_action_fault {label : List Byte} {pw fk fv pc cu : Nat} (kind : m.header = .cue label pw fk fv pc cu)
    {r : InvalidReason} (fault : readAction item = .error r) :
    m.addItem item = { m with status := .invalid r (some m.staged) } := by
  simp [Image.addItem, Nat.not_le.mpr room, kind, fault]

variable {label : List Byte} (kind : m.header = .group label) {p : Nat}
include kind

theorem Image.addItem_point (inside : p < 1056) (new : p ∉ m.members) :
    m.addItem (be 2 p) = Image.filled { m with members := m.members ++ [p] } := by
  have read := two_read p (by omega)
  simp [Image.addItem, Nat.not_le.mpr room, kind, be_two, read, Config.points, Nat.not_le.mpr inside, new]

theorem Image.addItem_point_range (fits : p < 65536) (out : 1056 ≤ p) :
    m.addItem (be 2 p) = { m with status := .invalid .range (some m.staged) } := by
  have read := two_read p fits
  simp [Image.addItem, Nat.not_le.mpr room, kind, be_two, read, Config.points, out]

theorem Image.addItem_point_duplicate (inside : p < 1056) (held : p ∈ m.members) :
    m.addItem (be 2 p) = { m with status := .invalid .duplicate (some m.staged) } := by
  have read := two_read p (by omega)
  simp [Image.addItem, Nat.not_le.mpr room, kind, be_two, read, Config.points, Nat.not_le.mpr inside, held]

end
end

theorem ActTarget.fitsItem_of_inRange {t : ActTarget} (inside : t.InRange) : t.FitsItem := by
  cases t with
  | point n => exact Nat.lt_trans inside (by decide)
  | group g => exact Nat.lt_trans inside (by decide)

theorem Action.fitsItem_of_inRange {a : Action} (inside : a.InRange) : a.FitsItem := by
  cases a with
  | level t v time cv clear =>
    obtain ⟨target, low, high, short⟩ := inside
    exact ⟨ActTarget.fitsItem_of_inRange target, Int.le_trans (by decide) low, Int.le_trans high (by decide), by omega⟩
  | route z m => exact ⟨Nat.lt_trans inside.1 (by decide), fun k same => Nat.lt_trans (inside.2 k same) (by decide)⟩
  | mask m on => exact Nat.lt_trans inside (by decide)
  | trigger n mode =>
    refine ⟨Nat.lt_trans inside.1 (by decide), ?_⟩
    cases mode with
    | pulse w => exact Nat.lt_of_le_of_lt inside.2.2 (by decide)
    | set => trivial
    | clear => trivial
    | repeating t turns =>
      obtain ⟨_, _, high, _, few⟩ := inside
      exact ⟨Nat.lt_of_le_of_lt high (by decide), Nat.lt_of_le_of_lt few (by decide)⟩
  | halt t => exact ActTarget.fitsItem_of_inRange inside

theorem Action.length_chars (a : Action) : a.chars.length = 12 := by
  have target : ∀ t : ActTarget, t.chars.length = 3 := fun t => by cases t <;> rfl
  cases a with
  | level t v time cv clear => simp [Action.chars, target]
  | route z m => simp [Action.chars, mixBytes]
  | mask m on => simp [Action.chars]
  | trigger n mode => cases mode <;> simp [Action.chars]
  | halt t => simp [Action.chars, target]

/-! ## Items staged in order -/

/-- Items each of which takes one image of a sequence to the next. -/
theorem addItems_of_steps {α : Type} {chars : α → List Byte} {image : List α → Image} {xs : List α}
    (step : ∀ done x after, xs = done ++ x :: after →
      (image done).addItem (chars x) = image (done ++ [x]) ∧ (image (done ++ [x])).isInvalid = false)
    (rest : List (List Byte)) : addItems (xs.map chars ++ rest) (image []) = addItems rest (image xs) := by
  have from_ : ∀ after done, xs = done ++ after → addItems (after.map chars ++ rest) (image done) = addItems rest (image xs) := by
    intro after
    induction after with
    | nil => simp +contextual
    | cons x after ih =>
      intro done split
      obtain ⟨next, valid⟩ := step done x after split
      rw [List.map_cons, List.cons_append, addItems, next, valid, if_neg Bool.false_ne_true]
      exact ih _ (by rw [split, List.append_assoc, List.singleton_append])
  exact from_ xs [] rfl

/-- The item at fault ends the request. -/
theorem addItems_fault {m : Image} {item : List Byte} {r : InvalidReason} {x : Option Nat}
    (fault : m.addItem item = { m with status := .invalid r x }) (rest : List (List Byte)) :
    addItems (item :: rest) m = { m with status := .invalid r x } := by
  rw [addItems, fault]
  rfl

/-- An open image after points that stay within its declared count. -/
def Image.withPoints (m : Image) (ps : List Nat) : Image :=
  { m with members := m.members ++ ps,
           status := if ps ≠ [] ∧ m.members.length + ps.length = m.declared then .complete else .opened }

/-- An open image after actions that stay within its declared count. -/
def Image.withActions (m : Image) (acts : List Action) : Image :=
  { m with actions := m.actions ++ acts,
           status := if acts ≠ [] ∧ m.actions.length + acts.length = m.declared then .complete else .opened }

theorem Image.staged_withPoints {m : Image} (none_ : m.actions = []) (ps : List Nat) :
    (m.withPoints ps).staged = m.members.length + ps.length := by simp [Image.staged, Image.withPoints, none_]

theorem Image.staged_withActions {m : Image} (none_ : m.members = []) (acts : List Action) :
    (m.withActions acts).staged = m.actions.length + acts.length := by simp [Image.staged, Image.withActions, none_]

theorem Image.withPoints_isInvalid (m : Image) (ps : List Nat) : (m.withPoints ps).isInvalid = false := by
  unfold Image.withPoints Image.isInvalid
  dsimp only
  split_ifs <;> rfl

theorem Image.withActions_isInvalid (m : Image) (acts : List Action) : (m.withActions acts).isInvalid = false := by
  unfold Image.withActions Image.isInvalid
  dsimp only
  split_ifs <;> rfl

section
variable {m : Image} (opened : m.status = .opened)
include opened

theorem addItems_points {label : List Byte} (kind : m.header = .group label) (none_ : m.actions = []) {ps : List Nat}
    (inside : ∀ p ∈ ps, p < 1056) (distinct : (m.members ++ ps).Nodup) (within : m.members.length + ps.length ≤ m.declared)
    (rest : List (List Byte)) : addItems (ps.map (be 2) ++ rest) m = addItems rest (m.withPoints ps) := by
  have start : m = m.withPoints [] := by simp [Image.withPoints, ← opened]
  conv_lhs => rw [start]
  refine addItems_of_steps (fun done p after split => ⟨?_, Image.withPoints_isInvalid ..⟩) rest
  subst split
  rw [List.length_append, List.length_cons] at within
  have staged := Image.staged_withPoints none_ done
  have room : (m.withPoints done).staged < (m.withPoints done).declared :=
    staged.trans_lt (show _ < m.declared by omega)
  have new : p ∉ m.members ++ done := by
    rw [← List.append_assoc, List.nodup_append] at distinct
    exact fun held => distinct.2.2 p held p (by simp) rfl
  rw [Image.addItem_point room (label := label) kind (inside p (by simp)) new, Image.filled_eq]
  have short : ¬ m.members.length + done.length = m.declared := by omega
  simp [Image.withPoints, Image.staged, none_, short]

theorem addItems_actions {label : List Byte} {pw fk fv pc cu : Nat} (kind : m.header = .cue label pw fk fv pc cu)
    (none_ : m.members = []) {acts : List Action} (inside : ∀ a ∈ acts, a.InRange)
    (within : m.actions.length + acts.length ≤ m.declared) (rest : List (List Byte)) :
    addItems (acts.map Action.chars ++ rest) m = addItems rest (m.withActions acts) := by
  have start : m = m.withActions [] := by simp [Image.withActions, ← opened]
  conv_lhs => rw [start]
  refine addItems_of_steps (fun done a after split => ⟨?_, Image.withActions_isInvalid ..⟩) rest
  subst split
  rw [List.length_append, List.length_cons] at within
  have staged := Image.staged_withActions none_ done
  have room : (m.withActions done).staged < (m.withActions done).declared :=
    staged.trans_lt (show _ < m.declared by omega)
  have there : a.InRange := inside a (by simp)
  have read : readAction a.chars = .ok a := (readAction_chars (Action.fitsItem_of_inRange there)).1 there
  rw [Image.addItem_action room kind read, Image.filled_eq]
  have short : ¬ m.actions.length + done.length = m.declared := by omega
  simp [Image.withActions, Image.staged, none_, short]

end

/-! ## The request -/

section
variable {l : Lane} (full : l ≠ .p) (tag : Byte) (items : List Byte) (s : State)
include full

theorem exec_stageAdd_empty (empty : s.buffer l = none) :
    exec (.stageAdd l tag items) s = .next (s.answer (.stageAdd l tag items) .notPermitted []) := by
  rw [exec, execStageAdd, fullOnly_full l _ _ _ full, empty]

theorem exec_stageAdd_unopened {m : Image} (held : s.buffer l = some m) (unopened : m.status ≠ .opened) :
    exec (.stageAdd l tag items) s = .next (s.answer (.stageAdd l tag items) .notPermitted []) := by
  rw [exec, execStageAdd, fullOnly_full l _ _ _ full, held]
  simp [unopened]

theorem exec_stageAdd_malformed {m : Image} (held : s.buffer l = some m) (opened : m.status = .opened)
    (bad : itemsOf m.header items = none) :
    exec (.stageAdd l tag items) s = .next (s.answer (.stageAdd l tag items) .malformed []) := by
  rw [exec, execStageAdd, fullOnly_full l _ _ _ full, held]
  simp [opened, bad]

/-- What STAGE ADD does with an open image that its items leave as `m'`. -/
theorem exec_stageAdd_taken {m m' : Image} {xs : List (List Byte)} (held : s.buffer l = some m) (opened : m.status = .opened)
    (cut : itemsOf m.header items = some xs) (after : addItems xs m = m') {body : List Byte}
    (reply : be 1 (statusCode (some m')) ++ be 1 m'.staged ++ reasonByte m'.status ++ indexBytes m'.status = body) :
    ∃ t, exec (.stageAdd l tag items) s = .next t ∧ t.buffer l = some m' ∧ (∀ k, k ≠ l → t.buffer k = s.buffer k) ∧
      Answered s t (.stageAdd l tag items) .ok body [] ∧ t = { s with lanes := t.lanes, staging := t.staging } := by
  have run : exec (.stageAdd l tag items) s = .next ((s.setBuffer l (some m')).answer (.stageAdd l tag items) .ok body) := by
    rw [exec, execStageAdd, fullOnly_full l _ _ _ full, held]
    simp [opened, cut, after, ← reply]
  refine ⟨_, run, ?_, fun k other => ?_, .of_answer rfl ((Noticed.refl s).of_lanes (State.setBuffer_lanes ..)) _ _, ?_⟩
  · rw [State.buffer_answer, State.buffer_setBuffer_self s full]
  · rw [State.buffer_answer, State.buffer_setBuffer_other s _ other]
  · rw [State.answer_frame, State.setBuffer_frame]

end

/-! ## The items of a body -/

theorem itemsOf_points {m : Image} {label : List Byte} (kind : m.header = .group label) {ps : List Nat} (some_ : 1 ≤ ps.length)
    (most : ps.length ≤ 12) : itemsOf m.header (ps.flatMap (be 2)) = some (ps.map (be 2)) := by
  have width : ∀ c ∈ ps.map (be 2), c.length = 2 := by simp
  have cut := cutItems_flatten width 0 []
  rw [List.length_map, Nat.add_zero, List.append_nil, ← List.flatMap_def, cutItems, List.append_nil] at cut
  rw [itemsOf_whole (by rw [kind]; rfl) Nat.two_pos (by simp [Nat.mul_comm]) some_ most, cut]

theorem itemsOf_actions {m : Image} {label : List Byte} {pw fk fv pc cu : Nat} (kind : m.header = .cue label pw fk fv pc cu)
    {acts : List Action} {rest : List Byte} {n : Nat} (whole : rest.length = 12 * n) (some_ : 1 ≤ acts.length + n)
    (most : acts.length + n ≤ 12) :
    itemsOf m.header (acts.flatMap Action.chars ++ rest) = some (acts.map Action.chars ++ cutItems 12 n rest) := by
  have width : ∀ c ∈ acts.map Action.chars, c.length = 12 := by simp [Action.length_chars]
  have cut := cutItems_flatten width n rest
  rw [List.length_map, ← List.flatMap_def] at cut
  have length : (acts.flatMap Action.chars ++ rest).length = 12 * (acts.length + n) := by
    simp [Action.length_chars, whole, Nat.add_mul, Nat.mul_comm]
  rw [itemsOf_whole (by rw [kind]; rfl) (by decide) length some_ most, cut]

/-! ## The reply -/

/-- A reason and an index for an image that is not INVALID. -/
theorem reason_index_of_valid {m : Image} (valid : m.isInvalid = false) : reasonByte m.status ++ indexBytes m.status = [0, 0, 0] := by
  unfold Image.isInvalid at valid
  cases status : m.status with
  | opened => rfl
  | complete => rfl
  | invalid r x => simp [status] at valid

theorem reply_valid {m : Image} {n : Nat} (valid : m.isInvalid = false) (staged : m.staged = n) :
    be 1 (statusCode (some m)) ++ be 1 m.staged ++ reasonByte m.status ++ indexBytes m.status =
      be 1 (statusCode (some m)) ++ be 1 n ++ [0, 0, 0] := by
  rw [List.append_assoc _ (reasonByte _), reason_index_of_valid valid, staged]

/-- Settles O28: the items cut from the body are staged in order, each by its own lemma. -/
theorem stageAddAppendsItems : Obligations.StageAddAppendsItems := by
  intro l tag s full
  refine ⟨fun items empty => .of_answer rfl (exec_stageAdd_empty full tag items s empty),
    fun items m held unopened => .of_answer rfl (exec_stageAdd_unopened full tag items s held unopened),
    fun m label ps held opened kind none_ some_ most inside distinct within => ?points,
    fun m label pw fk fv pc cu acts held opened kind none_ some_ most inside within => ?actions,
    fun m label ps p rest r held opened kind none_ most inside distinct within fits fault => ?point_fault,
    fun m label pw fk fv pc cu acts item rest r held opened kind none_ length whole most inside within fault => ?action_fault,
    fun m items held opened bad known => .of_answer rfl (exec_stageAdd_malformed full tag items s held opened ?malformed)⟩
  case points =>
    have nonempty : ps ≠ [] := List.ne_nil_of_length_pos some_
    have after := addItems_points opened kind none_ inside distinct within []
    rw [List.append_nil, addItems] at after
    obtain ⟨t, run, buffer, others, answered, frame⟩ := exec_stageAdd_taken full tag _ s held opened (itemsOf_points kind some_ most) after
      (reply_valid (m.withPoints_isInvalid ps) (Image.staged_withPoints none_ ps))
    exact ⟨t, _, run, by simp [Image.withPoints, nonempty], buffer, others, answered, frame⟩
  case actions =>
    have nonempty : acts ≠ [] := List.ne_nil_of_length_pos some_
    have after := addItems_actions opened kind none_ inside within []
    rw [List.append_nil, addItems] at after
    have cut := itemsOf_actions (rest := []) (n := 0) kind rfl some_ most
    rw [List.append_nil, cutItems, List.append_nil] at cut
    obtain ⟨t, run, buffer, others, answered, frame⟩ := exec_stageAdd_taken full tag _ s held opened cut after
      (reply_valid (m.withActions_isInvalid acts) (Image.staged_withActions none_ acts))
    exact ⟨t, _, run, by simp [Image.withActions, nonempty], buffer, others, answered, frame⟩
  case point_fault =>
    have staged := Image.staged_withPoints none_ ps
    have bad : (m.withPoints ps).addItem (be 2 p) =
        { m.withPoints ps with status := .invalid r (some (m.members.length + ps.length)) } := by
      rw [← staged]
      by_cases at_end : m.members.length + ps.length = m.declared
      · rw [if_pos at_end] at fault
        subst fault
        exact Image.addItem_overflow ((at_end.symm.trans staged.symm).le)
      · have room : (m.withPoints ps).staged < (m.withPoints ps).declared := staged.trans_lt (lt_of_le_of_ne within at_end)
        rw [if_neg at_end] at fault
        by_cases out : 1056 ≤ p
        · rw [if_pos out] at fault
          subst fault
          exact Image.addItem_point_range room kind fits out
        · rw [if_neg out] at fault
          obtain ⟨twice, rfl⟩ := fault
          exact Image.addItem_point_duplicate room kind (Nat.lt_of_not_le out) twice
    have after := (addItems_points opened kind none_ inside distinct within (be 2 p :: rest.map (be 2))).trans (addItems_fault bad _)
    rw [← List.map_cons, ← List.map_append] at after
    exact exec_stageAdd_taken full tag _ s held opened (itemsOf_points kind (by simp; omega) most) after (by rw [← staged]; rfl)
  case action_fault =>
    have staged := Image.staged_withActions none_ acts
    have bad : (m.withActions acts).addItem item =
        { m.withActions acts with status := .invalid r (some (m.actions.length + acts.length)) } := by
      rw [← staged]
      by_cases at_end : m.actions.length + acts.length = m.declared
      · rw [if_pos at_end] at fault
        subst fault
        exact Image.addItem_overflow ((at_end.symm.trans staged.symm).le)
      · have room : (m.withActions acts).staged < (m.withActions acts).declared := staged.trans_lt (lt_of_le_of_ne within at_end)
        rw [if_neg at_end] at fault
        rcases fault with ⟨unknown, rfl⟩ | ⟨⟨a, out, fits, rfl⟩, rfl⟩
        · exact Image.addItem_action_fault room kind (readAction_unknown length unknown)
        · exact Image.addItem_action_fault room kind ((readAction_chars fits).2 out)
    have after := (addItems_actions opened kind none_ inside within (item :: cutItems 12 (rest.length / 12) rest)).trans
      (addItems_fault bad _)
    have cut := itemsOf_actions (acts := acts) (rest := item ++ rest) (n := rest.length / 12 + 1) kind (by rw [List.length_append]; omega) (by omega)
      (by omega)
    rw [cutItems, List.take_left' length, List.drop_left' length, ← List.append_assoc] at cut
    exact exec_stageAdd_taken full tag _ s held opened cut after (by rw [← staged]; rfl)
  case malformed =>
    rcases bad with ⟨cue, bad⟩ | ⟨group, bad⟩
    · have width : itemLength m.header = some 12 := by
        cases kind : m.header with
        | cue => rfl
        | unknown k rest => exact absurd kind (known k rest)
        | _ => simp [kind, StageHeader.kindCode] at cue
      exact itemsOf_eq_none width (by omega)
    · have width : itemLength m.header = some 2 := by
        cases kind : m.header with
        | group => rfl
        | unknown k rest => exact absurd kind (known k rest)
        | _ => simp [kind, StageHeader.kindCode] at group
      exact itemsOf_eq_none width (by omega)

end Sys2Proof.Machine
end

section
/-! Characters of a lane (10.1): their bits, and a frame's characters received in order. -/

namespace Sys2Proof.Machine

/-! ## The bits of a character -/

/-- Consecutive bits of a number come to those bits' part of it. -/
theorem bitsValue_testBits (n i k : Nat) : bitsValue ((List.range' i k).map n.testBit) = n / 2 ^ i % 2 ^ k := by
  induction k generalizing i with
  | zero => simp [bitsValue, Nat.mod_one]
  | succ k ih =>
    have bit : (if n.testBit i then 1 else 0) = n / 2 ^ i % 2 := by
      rw [← Nat.toNat_testBit]
      cases n.testBit i <;> rfl
    rw [List.range'_succ, List.map_cons, bitsValue, ih, bit, Nat.pow_succ 2 i, ← Nat.div_div_eq_div_mul, Nat.pow_succ', Nat.mod_mul]

theorem bitsValue_getLsbD (d : Byte) : BitVec.ofNat 8 (bitsValue [d.getLsbD 0, d.getLsbD 1, d.getLsbD 2, d.getLsbD 3, d.getLsbD 4,
    d.getLsbD 5, d.getLsbD 6, d.getLsbD 7]) = d := by
  have value := bitsValue_testBits d.toNat 0 8
  rw [Nat.pow_zero, Nat.div_one, Nat.mod_eq_of_lt d.isLt] at value
  exact (congrArg (BitVec.ofNat 8) value).trans (BitVec.ofNat_toNat ..|>.trans (BitVec.setWidth_eq d))

theorem readBits_bits (c : Character) : readBits c.bits = .character c := congrArg LineRead.character (by rw [bitsValue_getLsbD])

theorem length_bits (c : Character) : c.bits.length = 11 := rfl

/-! ## A reply on the line -/

theorem getD_flatMap_bits {cs : List Character} {k j : Nat} {c : Character} (held : cs[k]? = some c) (inside : j < 11) :
    (cs.flatMap Character.bits).getD (11 * k + j) true = c.bits.getD j true := by
  induction cs generalizing k with
  | nil => simp at held
  | cons d cs ih =>
    rw [List.flatMap_cons]
    cases k with
    | zero =>
      obtain rfl : d = c := by simpa using held
      rw [Nat.mul_zero, Nat.zero_add, List.getD_append _ _ _ _ inside]
    | succ k =>
      have past : 11 * (k + 1) + j - d.bits.length = 11 * k + j := by rw [length_bits]; omega
      rw [List.getD_append_right _ _ _ _ (by rw [length_bits]; omega), past, ih held]

theorem length_flatMap_bits (cs : List Character) : (cs.flatMap Character.bits).length = 11 * cs.length := by
  simp [length_bits, Nat.mul_comm]

/-! ## A frame's characters received -/

theorem receiveChars_cons {a : Option (List Byte)} {c : Character} {cs : List Character} (more : cs ≠ []) :
    receiveChars a (c :: cs) = receiveChars (receiveChar a c).1 cs := by
  cases cs with
  | nil => exact absurd rfl more
  | cons d cs => rfl

section
variable {tag n code : Byte} {done : List Byte}

theorem receiveChar_joins (c : Byte) (short : done.length ≤ n.toNat) :
    (receiveChar (some (tag :: n :: code :: done)) ⟨false, c⟩).1 = some (tag :: n :: code :: (done ++ [c])) := by
  have more : ¬ done.length = n.toNat + 1 := by omega
  simp [receiveChar, assemble, more]

theorem receiveChar_completes (hi lo : Byte) (whole : done.length = n.toNat) :
    receiveChar (some (tag :: n :: code :: (done ++ [hi]))) ⟨false, lo⟩ =
      (none, completeFrame ⟨tag, code, done⟩ (checkOf hi lo)) := by
  simp [receiveChar, assemble, ← whole]

/-- What is left of a frame, received with the length and the code and some of the body in assembly. -/
theorem receiveChars_body (body : List Byte) (hi lo : Byte) (length : n.toNat = done.length + body.length) :
    receiveChars (some (tag :: n :: code :: done)) ((body ++ [hi, lo]).map (Character.mk false)) =
      (none, completeFrame ⟨tag, code, done ++ body⟩ (checkOf hi lo)) := by
  induction body generalizing done with
  | nil =>
    have whole : done.length = n.toNat := length.symm
    rw [List.append_nil, ← receiveChar_completes hi lo whole, ← receiveChar_joins hi whole.le]
    rfl
  | cons c body ih =>
    rw [List.length_cons] at length
    have rest := ih (done := done ++ [c]) (by rw [List.length_append, List.length_singleton]; omega)
    rw [List.append_assoc, List.singleton_append, ← receiveChar_joins c (by omega)] at rest
    rw [← rest]
    exact receiveChars_cons (by simp)

end

theorem lengthChar_toNat {f : Frame} (fits : f.fits = true) : (lengthChar f.body).toNat = f.body.length := by
  have short : f.body.length ≤ 250 := of_decide_eq_true fits
  exact one_read _ (by omega)

theorem receiveChars_charsWith {f : Frame} (fits : f.fits = true) (r : Check) :
    receiveChars none (charsWith f r) = (none, completeFrame f r) := by
  have short : f.body.length ≤ 250 := of_decide_eq_true fits
  have length := lengthChar_toNat fits
  have header : (receiveChar (some [f.tag]) ⟨false, lengthChar f.body⟩).1 = some [f.tag, lengthChar f.body] := by
    simp [receiveChar, assemble, length, Nat.not_lt.mpr short]
  obtain ⟨hi, lo, word, check⟩ : ∃ hi lo, be 2 r.toNat = [hi, lo] ∧ checkOf hi lo = r :=
    ⟨_, _, be_two _, by rw [checkOf, two_read _ r.isLt, BitVec.ofNat_toNat, BitVec.setWidth_eq]⟩
  calc receiveChars none (charsWith f r)
      = receiveChars (some [f.tag]) ((lengthChar f.body :: f.code :: (f.body ++ [hi, lo])).map (Character.mk false)) := by
        rw [charsWith, word]
        rfl
    _ = receiveChars (some [f.tag, lengthChar f.body]) ((f.code :: (f.body ++ [hi, lo])).map (Character.mk false)) := by
        rw [List.map_cons, receiveChars_cons (by simp), header]
    _ = receiveChars (some [f.tag, lengthChar f.body, f.code]) ((f.body ++ [hi, lo]).map (Character.mk false)) := by
        rw [List.map_cons, receiveChars_cons (by simp)]
        rfl
    _ = (none, completeFrame f r) := by
        rw [receiveChars_body (tag := f.tag) (code := f.code) (done := []) f.body hi lo (length.trans (Nat.zero_add _).symm), check]
        rfl

/-- Settles O5, from the bits of a character up to a frame. -/
theorem frameCharactersComeToTheirFrame : Obligations.FrameCharactersComeToTheirFrame := by
  refine ⟨fun c => ⟨rfl, fun a => ⟨?_, rfl⟩⟩, fun f r fits => ⟨⟨_, rfl, ?_, ?_⟩, receiveChars_charsWith fits r⟩,
    fun x => ⟨fun cs k j c held there inside => ?_, fun cs n held past => ?_, fun n none_ => ?_⟩, by decide +kernel⟩
  · rw [receiveBits, readBits_bits]
  · simp only [List.forall_mem_map, implies_true]
  · rw [List.map_map]
    exact List.map_id _
  · rw [LaneState.transmits, held]
    exact getD_flatMap_bits there inside
  · rw [LaneState.transmits, held]
    exact List.getD_eq_default _ _ (by rw [length_flatMap_bits]; exact past)
  · rw [LaneState.transmits, none_]

end Sys2Proof.Machine
end

section
/-! A frame read as a request is the frame of that request (10.2, 10.5). -/

namespace Sys2Proof

/-! ## Characters written from what they carry -/

theorem one_write (x : Byte) : be 1 x.toNat = [x] := by rw [be_one, BitVec.ofNat_toNat, BitVec.setWidth_eq]

theorem four_write (a b c d : Byte) : be 4 (nat4 a b c d) = [a, b, c, d] := by
  have upper : ∀ x y z w : Byte, nat4 x y z w / 256 = nat3 x y z := fun x y z w => by
    have := w.isLt
    simp only [nat4, nat3]
    omega
  have lowest : BitVec.ofNat 8 (nat4 a b c d) = d := by
    have := d.isLt
    apply BitVec.eq_of_toNat_eq
    simp only [nat4, BitVec.toNat_ofNat]
    omega
  have others := three_write a b c
  rw [be_three, ← upper a b c d, Nat.div_div_eq_div_mul, Nat.div_div_eq_div_mul] at others
  rw [be_four, lowest]
  exact congrArg (· ++ [d]) others

theorem signed_write (a b : Byte) : signed (int2 a b) = [a, b] := by
  have word : nat2 a b < 65536 := by
    have := a.isLt
    have := b.isLt
    simp only [nat2]
    omega
  have value : (int2 a b % 65536).toNat = nat2 a b := by
    unfold int2
    split <;> omega
  rw [signed, value, two_write]

theorem zoneSet_write (a b c d : Byte) : zoneSetBytes (zoneSet4 a b c d) = [a, b, c, d] := by
  have value : (zoneSet4 a b c d).toNat = nat4 a b c d := by
    have := a.isLt
    have := b.isLt
    have := c.isLt
    have := d.isLt
    simp only [zoneSet4, nat4, BitVec.toNat_ofNat]
    omega
  rw [zoneSetBytes, value, four_write]

/-! ## Bodies read -/

/-- What is read is a request whose frame on this lane is this one. -/
def ReadsFrame (l : Lane) (f : Frame) (o : Option Instr) : Prop := ∀ i, o = some i → requestFrame i = some (l, f)

section
variable {l : Lane} {t code : Byte} {body : List Byte} {n : Nat}

theorem ReadsFrame.none {f : Frame} : ReadsFrame l f none := nofun

theorem ReadsFrame.some {i : Instr} (same : code.toNat = n) (framed : requestFrame i = .some (l, ⟨t, BitVec.ofNat 8 n, body⟩)) :
    ReadsFrame l ⟨t, code, body⟩ (some i) := by
  rintro _ ⟨⟩
  rw [framed, ← same, BitVec.ofNat_toNat, BitVec.setWidth_eq]

theorem parse0_readsFrame {i : Instr} (same : code.toNat = n) (framed : requestFrame i = some (l, ⟨t, BitVec.ofNat 8 n, []⟩)) :
    ReadsFrame l ⟨t, code, body⟩ (parse0 i body) := by
  unfold parse0
  split
  · exact .some same framed
  · exact .none

theorem parse1_readsFrame {f : Nat → Instr} (same : code.toNat = n)
    (framed : ∀ x, requestFrame (f x) = some (l, ⟨t, BitVec.ofNat 8 n, be 1 x⟩)) : ReadsFrame l ⟨t, code, body⟩ (parse1 f body) := by
  unfold parse1
  split
  · exact .some same (by rw [framed, one_write])
  · exact .none

theorem parse11_readsFrame {f : Nat → Nat → Instr} (same : code.toNat = n)
    (framed : ∀ x y, requestFrame (f x y) = some (l, ⟨t, BitVec.ofNat 8 n, be 1 x ++ be 1 y⟩)) :
    ReadsFrame l ⟨t, code, body⟩ (parse11 f body) := by
  unfold parse11
  split
  · exact .some same (by rw [framed, one_write, one_write]; rfl)
  · exact .none

theorem parse31_readsFrame {f : Nat → Nat → Instr} (same : code.toNat = n)
    (framed : ∀ x y, requestFrame (f x y) = some (l, ⟨t, BitVec.ofNat 8 n, be 3 x ++ be 1 y⟩)) :
    ReadsFrame l ⟨t, code, body⟩ (parse31 f body) := by
  unfold parse31
  split
  · exact .some same (by rw [framed, three_write, one_write]; rfl)
  · exact .none

theorem parseTargetValue_readsFrame {f : Target → Int → Instr} (same : code.toNat = n)
    (framed : ∀ g v, requestFrame (f g v) = some (l, ⟨t, BitVec.ofNat 8 n, targetBytes g ++ signed v⟩)) :
    ReadsFrame l ⟨t, code, body⟩ (parseTargetValue f body) := by
  unfold parseTargetValue
  split
  · exact .some same (by rw [framed, targetBytes, one_write, two_write, signed_write]; rfl)
  · exact .none

theorem parseGo_readsFrame (same : code.toNat = 0x30) : ReadsFrame l ⟨t, code, body⟩ (parseGo (.go l t) body) := by
  unfold parseGo
  split
  · exact .some same rfl
  · exact .some same (by rw [requestFrame, three_write]; rfl)
  · exact .none

end

/-! ## STAGE BEGIN -/

/-- A label in front of other fields, cut at its length. -/
theorem labelBytes_take {n : Byte} {cs rest : List Byte} (cut : cs.drop n.toNat = rest) (more : rest ≠ []) :
    labelBytes (cs.take n.toNat) ++ rest = n :: cs := by
  have long : n.toNat < cs.length := by
    refine Nat.lt_of_not_le fun short => more ?_
    rw [← cut, List.drop_eq_nil_of_le short]
  rw [labelBytes, lengthChar, List.length_take_of_le long.le, BitVec.ofNat_toNat, BitVec.setWidth_eq, List.cons_append, ← cut,
    List.take_append_drop]

theorem stageBeginBody_known {k : Byte} {h : StageHeader} {rest : List Byte} {n : Nat} (known : ∀ k r, h ≠ .unknown k r)
    (same : k.toNat = h.kindCode) (fields : headerBytes h ++ be 1 n = rest) (g : Nat) :
    stageBeginBody g h n = k :: (be 3 g ++ rest) := by
  have kind : be 1 h.kindCode = [k] := by rw [← same, one_write]
  rw [stageBeginBody, kind, fields, List.append_assoc, List.singleton_append]
  exact known

theorem stageBeginBody_unknown (g : Nat) (k : Byte) (rest : List Byte) (n : Nat) :
    stageBeginBody g (.unknown k rest) n = k :: (be 3 g ++ rest) := by
  rw [stageBeginBody, StageHeader.kindCode, one_write, List.append_assoc, List.singleton_append]

/-- Polarities of one character each. -/
theorem flatMap_be_one (cs : List Byte) : (cs.map BitVec.toNat).flatMap (be 1) = cs := by
  rw [List.flatMap_map]
  simp only [one_write, List.flatMap_singleton']

theorem stageBeginBody_parseHeader {k : Byte} {rest : List Byte} {h : StageHeader × Nat} (read : parseHeader k rest = some h)
    (g : Nat) : stageBeginBody g h.1 h.2 = k :: (be 3 g ++ rest) := by
  unfold parseHeader at read
  split at read
  case h_1 same =>
    cases rest with
    | nil => nomatch read
    | cons n cs =>
      dsimp only at read
      split at read
      · next cut =>
        obtain rfl := Option.some.inj read
        refine stageBeginBody_known (by nofun) same ?_ g
        rw [← labelBytes_take cut (List.cons_ne_nil _ _)]
        simp only [headerBytes, three_write, one_write, List.append_assoc, List.cons_append, List.nil_append]
      · nomatch read
  case h_2 same =>
    cases rest with
    | nil => nomatch read
    | cons n cs =>
      dsimp only at read
      split at read
      · next cut =>
        obtain rfl := Option.some.inj read
        refine stageBeginBody_known (by nofun) same ?_ g
        rw [← labelBytes_take cut (List.cons_ne_nil _ _), headerBytes, one_write]
      · nomatch read
  case h_3 same =>
    split at read
    · obtain rfl := Option.some.inj read
      refine stageBeginBody_known (by nofun) same ?_ g
      simp only [headerBytes, two_write, one_write, signed_write, List.cons_append, List.nil_append]
    · nomatch read
  case h_4 same =>
    split at read
    · next cut =>
      obtain rfl := Option.some.inj read
      refine stageBeginBody_known (by nofun) same ?_ g
      rw [headerBytes, flatMap_be_one, one_write, ← cut, List.take_append_drop]
    · nomatch read
  case h_5 same =>
    split at read
    · obtain rfl := Option.some.inj read
      refine stageBeginBody_known (by nofun) same ?_ g
      simp only [headerBytes, two_write, three_write, one_write, List.cons_append, List.nil_append]
    · nomatch read
  case h_6 same =>
    split at read
    · obtain rfl := Option.some.inj read
      refine stageBeginBody_known (by nofun) same ?_ g
      rw [headerBytes, one_write, List.nil_append]
    · nomatch read
  case h_7 same =>
    split at read
    · obtain rfl := Option.some.inj read
      refine stageBeginBody_known (by nofun) same ?_ g
      rw [headerBytes, one_write, List.nil_append]
    · nomatch read
  case h_8 =>
    obtain rfl := Option.some.inj read
    exact stageBeginBody_unknown g k rest 0

theorem parseStageBegin_readsFrame {l : Lane} {t code : Byte} {body : List Byte} (same : code.toNat = 0x50) :
    ReadsFrame l ⟨t, code, body⟩ (parseStageBegin (.stageBegin l t) body) := by
  unfold parseStageBegin
  split
  · next k t2 t1 t0 rest =>
    cases read : parseHeader k rest with
    | none => exact .none
    | some h => exact .some same (by rw [requestFrame, stageBeginBody_parseHeader read, three_write]; rfl)
  · exact .none

/-- The arms of `parseRequest`, by the shape of the body that they read. -/
theorem parseRequest_readsFrame (l : Lane) (f : Frame) : ReadsFrame l f (parseRequest l f) := by
  obtain ⟨t, code, body⟩ := f
  unfold parseRequest
  dsimp only
  split
  any_goals exact parse0_readsFrame ‹_› rfl
  any_goals exact parse1_readsFrame ‹_› fun _ => rfl
  any_goals exact parse11_readsFrame ‹_› fun _ _ => rfl
  any_goals exact parse31_readsFrame ‹_› fun _ _ => rfl
  any_goals exact parseTargetValue_readsFrame ‹_› fun _ _ => rfl
  any_goals exact parseGo_readsFrame ‹_›
  any_goals exact parseStageBegin_readsFrame ‹_›
  any_goals exact .some ‹_› rfl
  any_goals exact .none
  all_goals
    split
    · refine .some ‹_› ?_
      simp only [requestFrame, targetBytes, one_write, two_write, three_write, four_write, signed_write, zoneSet_write]
      rfl
    · exact .none

end Sys2Proof
end

section
/-! A request's frame read back as that request (10.2, 10.5). -/

namespace Sys2Proof

/-! ## Operands as the characters that carry them -/

theorem exists_one {n : Nat} (fits : fits1 n = true) : ∃ x : Byte, n = x.toNat :=
  ⟨BitVec.ofNat 8 n, (one_read n (of_decide_eq_true fits)).symm⟩

theorem exists_two {n : Nat} (fits : fits2 n = true) : ∃ a b, n = nat2 a b := ⟨_, _, (two_read n (of_decide_eq_true fits)).symm⟩

theorem exists_three {n : Nat} (fits : fits3 n = true) : ∃ a b c, n = nat3 a b c :=
  ⟨_, _, _, (three_read n (of_decide_eq_true fits)).symm⟩

theorem exists_four {n : Nat} (fits : n < 4294967296) : ∃ a b c d, n = nat4 a b c d := ⟨_, _, _, _, (four_read n fits).symm⟩

theorem exists_signed {v : Int} (fits : fitsSigned v = true) : ∃ a b, v = int2 a b := by
  rw [fitsSigned, Bool.and_eq_true, decide_eq_true_eq, decide_eq_true_eq] at fits
  obtain ⟨a, b, _, read⟩ := signed_read v fits.1 fits.2
  exact ⟨a, b, read.symm⟩

theorem exists_target {g : Target} (fits : g.fits = true) : ∃ k a b : Byte, g = ⟨k.toNat, nat2 a b⟩ := by
  rw [Target.fits, Bool.and_eq_true] at fits
  obtain ⟨k, kind⟩ := exists_one fits.1
  obtain ⟨a, b, number⟩ := exists_two fits.2
  exact ⟨k, a, b, by rw [← kind, ← number]⟩

theorem exists_zoneSet (z : ZoneSet) : ∃ a b c d, z = zoneSet4 a b c d := by
  obtain ⟨a, b, c, d, value⟩ := exists_four z.isLt
  exact ⟨a, b, c, d, by rw [zoneSet4, ← value, BitVec.ofNat_toNat, BitVec.setWidth_eq]⟩

/-! ## Bodies read back -/

theorem parse1_be (f : Nat → Instr) {x : Nat} (fits : fits1 x = true) : parse1 f (be 1 x) = some (f x) := by
  obtain ⟨c, rfl⟩ := exists_one fits
  rw [one_write]
  rfl

theorem parse11_be (f : Nat → Nat → Instr) {x y : Nat} (fits : (fits1 x && fits1 y) = true) :
    parse11 f (be 1 x ++ be 1 y) = some (f x y) := by
  rw [Bool.and_eq_true] at fits
  obtain ⟨c, rfl⟩ := exists_one fits.1
  obtain ⟨d, rfl⟩ := exists_one fits.2
  rw [one_write, one_write]
  rfl

theorem parse31_be (f : Nat → Nat → Instr) {x y : Nat} (fits : (fits3 x && fits1 y) = true) :
    parse31 f (be 3 x ++ be 1 y) = some (f x y) := by
  rw [Bool.and_eq_true] at fits
  obtain ⟨a, b, c, rfl⟩ := exists_three fits.1
  obtain ⟨d, rfl⟩ := exists_one fits.2
  rw [three_write, one_write]
  rfl

theorem parseTargetValue_targetBytes (f : Target → Int → Instr) {g : Target} {v : Int} (fits : (g.fits && fitsSigned v) = true) :
    parseTargetValue f (targetBytes g ++ signed v) = some (f g v) := by
  rw [Bool.and_eq_true] at fits
  obtain ⟨k, a, b, rfl⟩ := exists_target fits.1
  obtain ⟨c, d, rfl⟩ := exists_signed fits.2
  rw [targetBytes, one_write, two_write, signed_write]
  rfl

theorem exists_bytes {ps : List Nat} (fits : ∀ p ∈ ps, fits1 p = true) : ∃ cs : List Byte, ps = cs.map BitVec.toNat := by
  refine ⟨ps.map (BitVec.ofNat 8), ?_⟩
  rw [List.map_map]
  exact (List.map_id ps).symm.trans (List.map_congr_left fun p mem => (one_read p (of_decide_eq_true (fits p mem))).symm)

theorem parseHeader_headerBytes {h : StageHeader} {n : Nat} (known : ∀ k r, h ≠ .unknown k r) (fits : h.fits = true)
    (count : fits1 n = true) : parseHeader (BitVec.ofNat 8 h.kindCode) (headerBytes h ++ be 1 n) = some (h, n) := by
  obtain ⟨dc, rfl⟩ := exists_one count
  rw [one_write]
  cases h with
  | unknown k r => exact absurd rfl (known k r)
  | cue label pw fk fv pc cu =>
    simp only [StageHeader.fits, Bool.and_eq_true, decide_eq_true_eq] at fits
    obtain ⟨⟨⟨⟨⟨short, fits_pw⟩, fits_fk⟩, fits_fv⟩, fits_pc⟩, fits_cu⟩ := fits
    obtain ⟨p2, p1, p0, rfl⟩ := exists_three fits_pw
    obtain ⟨k, rfl⟩ := exists_one fits_fk
    obtain ⟨f2, f1, f0, rfl⟩ := exists_three fits_fv
    obtain ⟨p, rfl⟩ := exists_one fits_pc
    obtain ⟨c, rfl⟩ := exists_one fits_cu
    have length : (lengthChar label).toNat = label.length := one_read _ (by omega)
    simp [headerBytes, labelBytes, three_write, one_write, parseHeader, StageHeader.kindCode, length]
  | group label =>
    have short : label.length ≤ 244 := of_decide_eq_true fits
    have length : (lengthChar label).toNat = label.length := one_read _ (by omega)
    simp [headerBytes, labelBytes, parseHeader, StageHeader.kindCode, length]
  | zoneSetup depth enable threshold hysteresis hold =>
    simp only [StageHeader.fits, Bool.and_eq_true] at fits
    obtain ⟨⟨⟨⟨fits_depth, fits_enable⟩, fits_threshold⟩, fits_hysteresis⟩, fits_hold⟩ := fits
    obtain ⟨d1, d0, rfl⟩ := exists_signed fits_depth
    obtain ⟨e, rfl⟩ := exists_one fits_enable
    obtain ⟨t1, t0, rfl⟩ := exists_signed fits_threshold
    obtain ⟨y1, y0, rfl⟩ := exists_signed fits_hysteresis
    obtain ⟨o1, o0, rfl⟩ := exists_two fits_hold
    rw [headerBytes, one_write, two_write, signed_write, signed_write, signed_write]
    rfl
  | triggerSetup ps =>
    simp only [StageHeader.fits, Bool.and_eq_true, beq_iff_eq, List.all_eq_true] at fits
    obtain ⟨length, fits⟩ := fits
    obtain ⟨cs, rfl⟩ : ∃ cs : List Byte, ps = cs.map BitVec.toNat :=
      exists_bytes fits
    rw [List.length_map] at length
    rw [headerBytes, flatMap_be_one]
    simp [parseHeader, StageHeader.kindCode, List.drop_left' length, List.take_left' length]
  | showSetup mode limit attack release =>
    simp only [StageHeader.fits, Bool.and_eq_true] at fits
    obtain ⟨⟨⟨fits_mode, fits_limit⟩, fits_attack⟩, fits_release⟩ := fits
    obtain ⟨m, rfl⟩ := exists_one fits_mode
    obtain ⟨l1, l0, rfl⟩ := exists_two fits_limit
    obtain ⟨a2, a1, a0, rfl⟩ := exists_three fits_attack
    obtain ⟨r2, r1, r0, rfl⟩ := exists_three fits_release
    rw [headerBytes, one_write, two_write, three_write, three_write]
    rfl
  | removeCue => rfl
  | removeGroup => rfl

theorem parseHeader_unknown {k : Byte} (unknown : k.toNat = 0 ∨ 8 ≤ k.toNat) (rest : List Byte) :
    parseHeader k rest = some (.unknown k rest, 0) := by
  unfold parseHeader
  split
  case h_8 => rfl
  all_goals omega

theorem parseStageBegin_stageBeginBody (f : Nat → StageHeader → Nat → Instr) {g n : Nat} {h : StageHeader}
    (fits : (fits3 g && h.fits && h.fitsDeclared n) = true) : parseStageBegin f (stageBeginBody g h n) = some (f g h n) := by
  rw [Bool.and_eq_true, Bool.and_eq_true] at fits
  obtain ⟨⟨target, header⟩, count⟩ := fits
  obtain ⟨a, b, c, rfl⟩ := exists_three target
  by_cases known : ∀ k r, h ≠ .unknown k r
  · have declared : fits1 n = true ∧ (BitVec.ofNat 8 h.kindCode).toNat = h.kindCode := by
      cases h with
      | unknown k r => exact absurd rfl (known k r)
      | _ => exact ⟨count, rfl⟩
    rw [stageBeginBody_known known declared.2 rfl, three_write]
    exact congrArg (Option.map _) (parseHeader_headerBytes known header declared.1)
  · obtain ⟨k, rest, rfl⟩ : ∃ k rest, h = .unknown k rest := by simpa using known
    have empty : n = 0 := eq_of_beq count
    simp only [StageHeader.fits, Bool.and_eq_true, Bool.or_eq_true, beq_iff_eq, decide_eq_true_eq] at header
    rw [stageBeginBody_unknown, three_write, empty]
    exact congrArg (Option.map _) (parseHeader_unknown header.1 rest)

/-! ## Requests read back -/

/-- A request's frame reads as that request, one case for each request: an operand is named by the characters it is sent in. -/
theorem parseRequest_requestFrame {i : Instr} {l : Lane} {f : Frame} (fits : wellFormed i = true)
    (framed : requestFrame i = some (l, f)) : parseRequest l f = some i := by
  cases i
  case go l t c =>
    cases c with
    | none =>
      obtain ⟨⟩ := framed
      rfl
    | some c =>
      obtain ⟨⟩ := framed
      obtain ⟨x, y, z, rfl⟩ := exists_three fits
      rw [three_write]
      rfl
  all_goals obtain ⟨⟩ := framed
  case levelSet => exact parseTargetValue_targetBytes _ fits
  case trimNudge => exact parseTargetValue_targetBytes _ fits
  case trimSet => exact parseTargetValue_targetBytes _ fits
  case trimClear t g =>
    obtain ⟨k, a, b, rfl⟩ := exists_target fits
    rw [targetBytes, one_write, two_write]
    rfl
  case levelRead t p n =>
    obtain ⟨point, count⟩ := Bool.and_eq_true_iff.mp fits
    obtain ⟨a, b, rfl⟩ := exists_two point
    obtain ⟨c, rfl⟩ := exists_one count
    rw [two_write, one_write]
    rfl
  case inputSwap t x y => exact parse11_be (.inputSwap l t) fits
  case mixMask t m v => exact parse11_be (.mixMask l t) fits
  case fadeStatus t k n => exact parse11_be (.fadeStatus l t) fits
  case cueList t x n => exact parse31_be (.cueList l t) fits
  case cueRead t c x => exact parse31_be (.cueRead l t) fits
  case groupRead t g => exact parse1_be (.groupRead l t) fits
  case setupRead t k z => exact parse11_be (.setupRead l t) fits
  case standbySet t c =>
    obtain ⟨x, y, z, rfl⟩ := exists_three fits
    rw [three_write]
    rfl
  case runStatus t x => exact parse1_be (.runStatus l t) fits
  case zoneRoute t z m => exact parse11_be (.zoneRoute l t) fits
  case zoneStatus t z n => exact parse11_be (.zoneStatus l t) fits
  case callOpen t k z v =>
    obtain ⟨cls, level⟩ := Bool.and_eq_true_iff.mp fits
    obtain ⟨c, rfl⟩ := exists_one cls
    obtain ⟨z3, z2, z1, z0, rfl⟩ := exists_zoneSet z
    obtain ⟨a, b, rfl⟩ := exists_signed level
    rw [one_write, zoneSet_write, signed_write]
    rfl
  case alarmPoll t z => exact parse1_be (.alarmPoll l t) fits
  case alarmsAck t z =>
    obtain ⟨z3, z2, z1, z0, rfl⟩ := exists_zoneSet z
    rw [zoneSet_write]
    rfl
  case arm t m d =>
    obtain ⟨mode, delay⟩ := Bool.and_eq_true_iff.mp fits
    obtain ⟨c, rfl⟩ := exists_one mode
    obtain ⟨x, y, z, rfl⟩ := exists_three delay
    rw [one_write, three_write]
    rfl
  case readLog t k =>
    obtain ⟨a, b, c, d, rfl⟩ := exists_four (Nat.lt_succ_of_le (of_decide_eq_true fits))
    rw [four_write]
    rfl
  case stageBegin t g h n => exact parseStageBegin_stageBeginBody (.stageBegin l t) fits
  case stageVerify t x => exact parse1_be (.stageVerify l t) fits
  case stageCommit t k g n e =>
    simp only [wellFormed, Bool.and_eq_true] at fits
    obtain ⟨⟨⟨fits_kind, fits_target⟩, fits_count⟩, fits_edit⟩ := fits
    obtain ⟨kind, rfl⟩ := exists_one fits_kind
    obtain ⟨x, y, z, rfl⟩ := exists_three fits_target
    obtain ⟨count, rfl⟩ := exists_one fits_count
    obtain ⟨a, b, rfl⟩ := exists_two fits_edit
    rw [one_write, three_write, one_write, two_write]
    rfl
  case laneStatus t x => exact parse1_be (.laneStatus l t) fits
  all_goals rfl

/-- Settles O4: both ways by the shape of each request's body, and the codes as `requestFrame` writes them. -/
theorem requestsAndFramesReadBackEachWay : Obligations.RequestsAndFramesReadBackEachWay := by
  refine ⟨fun i l f => parseRequest_requestFrame, fun l f => parseRequest_readsFrame l f, fun i l f framed => ?_⟩
  cases i
  case go l t c => cases c <;> obtain ⟨⟩ := framed <;> rfl
  all_goals obtain ⟨⟩ := framed
  all_goals rfl

end Sys2Proof
end
